-- ==== Sys2Proof/Word.lean ====
section
/-! DEFINITION. The word type of the register map (every register is 16 bits wide, 00_scope.md) and its plainest
companions. -/

namespace Sys2Proof

/-- A register or a memory word: 16 bits (00_scope.md, "Register conventions"). -/
abbrev Word := BitVec 16

/-- A byte of a serial frame. -/
abbrev Byte := BitVec 8

end Sys2Proof
end

