-- ==== Sys2Proof/Syntax.lean ====
section
/-! DEFINITION. The commands of the block: one constructor per row of spec/opcode_table.json, with the operands
each command carries (who makes the access, which unit, address and word, or the measured quantity it reports). -/

namespace Sys2Proof

/-- A requester that has its own mailbox bank, latches and selections (21_register_index_and_codes.md, R671). -/
inductive Req where
  /-- the SPI target -/
  | spt
  /-- I2C-A -/
  | i2ca
  /-- the UART console -/
  | uart
  /-- all remote ring accesses together -/
  | ring
  /-- all remote floor accesses together -/
  | floor
  /-- the grist loader -/
  | loader
  /-- recipe engine n -/
  | engine (n : Fin 4)
  deriving DecidableEq, Repr

/-- What a switching rail's detectors measured at a detection: the analogue part of a last-fault record
(04_rails.md, R153). -/
structure Meas where
  /-- phase of a gang whose own input made the detection, 0 for the leader's -/
  phase : Fin 4
  /-- switching island cycles since the reference's ramp began, and those of them in which a coincident source ramped
  with it (R138, R139) -/
  ramp : Nat
  srcRamp : Nat
  /-- sense code of the tracking source at its last 1 µs sample (R137) -/
  srcSense : Word
  /-- sense voltage code -/
  sense : Word
  /-- V_IMON of every phase, the leader's first, µV (R118) -/
  imon : List Nat
  /-- V_IMON of the detecting phase in the periods or instants that the rule counts, µV: the least of them -/
  peak : Nat
  /-- V_TMON of the detecting phase, µV (R118): the least of the samples that the rule counts -/
  tmon : Nat
  /-- VSYS, mV -/
  vsys : Word
  /-- sixteen pairs of sense code and V_IMON of every phase in µV, oldest first -/
  hist : List (Word × List Nat)
  deriving DecidableEq, Repr

/-- What an LCP port samples of a request frame, and how the transaction went (06_load_command_ports.md,
R205, R214, R220). -/
structure LcpReq where
  /-- the levels of LCPn_DAT that the port samples, in order, up to the turnaround (R203, R205) -/
  samples : List Bool
  /-- the fabric decided within WMAX wait cycles (otherwise the port answers PENDING, R214) -/
  inTime : Bool
  /-- the response frame was clocked out complete (R218, R220) -/
  delivered : Bool
  deriving DecidableEq, Repr

/-- What LCP port p sees on LCPn_DAT while it answers: the number of its wait cycles, and the level that it samples in each cycle
from the end of the request on (06_load_command_ports.md, R200, R226). -/
structure LcpAnswered where
  port : Fin 4
  wait : Nat
  samples : List Bool
  deriving DecidableEq, Repr

/-- What the SPI host read in a JESD216 discovery (15_spi_ports.md, R532, R533). -/
structure Sfdp where
  /-- the SFDP header and the first parameter header, 16 bytes in order -/
  header : List Byte
  /-- the DWORDs of the basic flash parameter table, in order -/
  table : List (BitVec 32)
  deriving DecidableEq, Repr

/-- What a line fill or an instruction fetch brought (09_recipe_engines.md, R340, R342). -/
inductive Fill where
  /-- the 32 bytes that the read command brought from flash, in order (R339, R539) -/
  | line (bs : List Byte)
  /-- a fetch from recipe SRAM met an uncorrectable error -/
  | sramUe
  /-- a fetch from recipe SRAM met an error that was corrected (R232, RSRAM_CE) -/
  | sramCe
  deriving DecidableEq, Repr

/-- One converter result (11_taps_and_measurement.md, R388, R390, R404). -/
structure Sample where
  /-- source code -/
  src : Byte
  /-- input divided by reference times 2^24, signed, before the calibration of the attenuators -/
  raw : BitVec 32
  /-- die temperature in units of 2^-16 °C, where the source is the die temperature -/
  dieT : Int
  /-- by how much the stamp differs from the device time of the conversion's end, in units of 2^-32 s -/
  err : Int
  deriving DecidableEq, Repr

/-- A ring beacon as received (12_device_ring.md, R428); its CRC is judged by the receiver. -/
structure Beacon where
  master : Byte
  pri : BitVec 2
  mvalid : Bool
  wrap : Bool
  tvalid : Bool
  losrep : Bool
  hops : Byte
  sender : Byte
  cycle : BitVec 32
  tTx : BitVec 64
  tRx : BitVec 64
  cycRx : BitVec 32
  slice : BitVec 4
  release : Word
  fecrep : Byte
  deriving DecidableEq, Repr

/-- A telemetry container as received or sent (12_device_ring.md, R429). -/
structure Container where
  src : Byte
  dst : Byte
  /-- TYPE 1, a stream fragment; otherwise empty -/
  stream : Bool
  frag : Fin 4
  present : Bool
  seq : Byte
  /-- sixteen words of a block, low byte first -/
  payload : List Word
  barrier : Byte
  waiting : Bool
  deriving DecidableEq, Repr

/-- A management slot or floor management section (12_device_ring.md, R452; 13_floor_bus.md, R472). -/
structure Msg where
  kind : Byte
  dst : Byte
  src : Byte
  tag : Byte
  count : Byte
  /-- word address, remote operation code or final code -/
  code : Word
  /-- D0 onwards -/
  data : List Word
  deriving DecidableEq, Repr

/-- A symbol of the ring's code (12_device_ring.md, R423). -/
abbrev Sym := BitVec 10

/-- One ring cycle as received on one lane (12_device_ring.md, R423 to R433, R443). -/
structure RingRx where
  /-- 0 ring 0 (LANE0), 1 ring 1 (LANE2) -/
  ring1 : Bool
  /-- how long after the last timebase cycle of 40 ns the marker arrived, in 1/16 symbols of 56 GBd, the resolution of a marker
  time (R443) -/
  inst : Fin 35840
  /-- the parts of the neighbour's T_TX and T_RX below 2^-32 s, in 1/16 symbols -/
  fineTx : Fin 209
  fineRx : Fin 209
  /-- the 20 codewords as received, symbols in the order sent -/
  codewords : List (List Sym)
  deriving DecidableEq, Repr

/-- A byte as the floor port receives it (13_floor_bus.md, R473): its stop bit, and how long the line idled between the byte
before it and its start bit, in samples of 12.5 ns. -/
structure FloorChar where
  data : Byte
  stop : Bool
  gap : Nat
  deriving DecidableEq, Repr

/-- A floor device frame's fields (13_floor_bus.md, R472). -/
structure FloorFrame where
  src : Byte
  /-- TYPE 0x2 (CLAIM) instead of 0x1 (STATUS) -/
  claim : Bool
  waiting : Bool
  alarm : Bool
  tvalid : Bool
  bar : Byte
  pri : BitVec 2
  repk : BitVec 2
  rep : Byte
  mgmt : Option Msg
  deriving DecidableEq, Repr

/-- A floor beacon's fields (13_floor_bus.md, R472). -/
structure FloorBeacon where
  src : Byte
  pri : BitVec 2
  ringt : Bool
  cycle : BitVec 32
  release : BitVec 256
  deriving DecidableEq, Repr

/-- A character in the UART's receive FIFO with its flags (16_i2c_and_uart.md, R578). -/
structure UartChar where
  data : Byte
  fe : Bool
  pe : Bool
  brk : Bool
  deriving DecidableEq, Repr

/-- How a controller transfer ended at the bus (16_i2c_and_uart.md, R572); a timeout and a lost arbitration have
commands of their own. -/
inductive I2cEnd where
  | done
  | nackAddr
  | nackData
  deriving DecidableEq, Repr

/-- Which I2C port. -/
inductive I2cPort where
  | a
  | b
  deriving DecidableEq, Repr

/-- A word of the router's retention registers other than a pending or an enable word (10_interrupt_router.md, R377,
R379). -/
inductive RetWord where
  | claimed (t : Fin 6) (w : Fin 24)
  | presented (t : Fin 6)
  | extCfg (n : Fin 8)
  | extFlg
  | hold (w : Fin 16)
  deriving DecidableEq, Repr

/-- Which live timer word lands in the island (17_timers_and_rtc.md, R595). -/
inductive TimerWord where
  | cnt
  | buf
  | mtch
  deriving DecidableEq, Repr

/-- The commands: one constructor per row of spec/opcode_table.json, in its order. -/
inductive Instr where
  -- start-up (03_start_up_and_grist.md)
  | powerOnReset (aonMv : Nat)
  | porRelease (aonMv coreMv vsysMv vbatMv : Nat)
  | oscillatorCountEnd (testmode : Bool)
  | otpSensingEnd (straps : Byte)
  | retentionCheckEnd
  | statusPollDone (sfdp : Sfdp)
  | sphNoresp (sfdp : Sfdp)
  | write (payload : List Word)
  | mask (addr msk val : Word)
  | fill (addr count val : Word)
  | gristCommit (group : Word)
  | tag (ws : List Word)
  | skippedRecord (header : Word) (payload : List Word)
  | term (len : BitVec 12)
  | erased
  | window (part : List Word)
  | resetNLow
  | resetNRise (testmode : Bool)
  | glbReset (r : Req)
  | chipResetRelease (testmode : Bool)
  -- register accesses (00_scope.md, 01_architecture.md)
  | registerWrite (r : Req) (addr val : Word)
  | stagedWrite (r : Req) (addr val : Word)
  | hiWrite (r : Req) (addr val : Word)
  | loWrite (r : Req) (addr val : Word)
  | loRead (r : Req) (addr : Word)
  | timeSnapshot (r : Req)
  -- unit operations (01_architecture.md)
  | unitInspect (r : Req)
  | unitGive (r : Req)
  | unitTake (r : Req)
  | unitRelease (r : Req)
  | unitFence (r : Req)
  -- rails, LDOs and supervisors (04_rails.md)
  | startCheckEnd (n : Fin 16) (moved : Nat) (m : Meas)
  | rampDone (n : Fin 16)
  | settleDone (n : Fin 16) (cycles : Nat) (lo hi : Word)
  | stopRampDone (k : Fin 24)
  | perPhaseApply (n : Fin 16)
  | ov (n : Fin 16) (m : Meas)
  | uv (n : Fin 16) (m : Meas)
  | oc (n : Fin 16) (m : Meas)
  | short (n : Fin 16) (m : Meas)
  | openSense (n : Fin 16) (m : Meas)
  | stageFlt (n : Fin 16) (m : Meas)
  | stageOt (n : Fin 16) (m : Meas)
  | ssto (n : Fin 16) (m : Meas)
  | trackErr (n : Fin 16) (m : Meas)
  | lastFaultRecordWrite (verified : Bool)
  | hushBegin (n : Fin 16)
  | hushEnd (n : Fin 16)
  | hushDroop (n : Fin 16) (sense : Word)
  | ldoPgRise (n : Fin 8) (out : Word)
  | pgTimeout (n : Fin 8)
  | pgLoss (n : Fin 8) (out : Word)
  | svEventBegin (n : Fin 32) (high : Bool) (uv : Nat) (cycles : Nat)
  | svEventEnd (n : Fin 32) (high : Bool) (uv : Nat) (cycles : Nat)
  -- faults and supplies (07_fault_handling.md)
  | dieShut (degC : Int)
  | dieWarn (degC : Int)
  | refReg
  | supplyFault (src : Fin 8) (mv : Nat)
  | vsysRevLatch (mv : Int) (vbatMv : Nat)
  | faultConditionClear (cls : Fin 10) (src : Byte) (val : Int)
  | errNInput (low : Bool)
  -- sequencer and cold stop (05_sequencing_and_cold_stop.md)
  | seqPowerOn (r : Req)
  | seqShutdown (r : Req)
  | seqColdStop (r : Req)
  | seqStepEnter
  | seqActionRetry
  | seqConditionMet
  | seqStepTimeout
  | seqWinW3Write (r : Req) (val : Word)
  | seqWinSelWrite (r : Req) (val : Word)
  | stopNFall (stays : Bool)
  | stopNRelease (low : Bool)
  | stopNMaskEnd (low : Bool)
  -- load command ports (06_load_command_ports.md)
  | status (p : Fin 4) (q : LcpReq)
  | read (p : Fin 4) (q : LcpReq)
  | setV (p : Fin 4) (q : LcpReq)
  | adjV (p : Fin 4) (q : LcpReq)
  | on (p : Fin 4) (q : LcpReq)
  | off (p : Fin 4) (q : LcpReq)
  | frameTo (p : Fin 4)
  | contention (x : LcpAnswered)
  -- fault collector (07_fault_handling.md)
  | faultOccurrence (k : Nat)
  | blockResetDone (u : Fin 256)
  | errNRelease
  | fltAck (r : Req) (val : Word)
  | fltScnt (r : Req) (val : Word)
  | fltInject (r : Req)
  | fltStoreErase (r : Req)
  -- commits and the cellar log (08_commits_recovery_and_cellar.md)
  | commit (r : Req)
  | abort (r : Req)
  | draughtRead (r : Req)
  | logWrite (r : Req)
  | logRdptrWrite (r : Req) (val : Word)
  -- engine instructions (09_recipe_engines.md)
  | add (e : Fin 4) (d s : BitVec 4)
  | sub (e : Fin 4) (d s : BitVec 4)
  | adds (e : Fin 4) (d s : BitVec 4)
  | subs (e : Fin 4) (d s : BitVec 4)
  | and (e : Fin 4) (d s : BitVec 4)
  | or (e : Fin 4) (d s : BitVec 4)
  | xor (e : Fin 4) (d s : BitVec 4)
  | mov (e : Fin 4) (d s : BitVec 4)
  | cmp (e : Fin 4) (d s : BitVec 4)
  | lsl (e : Fin 4) (d s : BitVec 4)
  | lsr (e : Fin 4) (d s : BitVec 4)
  | asr (e : Fin 4) (d s : BitVec 4)
  | ror (e : Fin 4) (d s : BitVec 4)
  | mul (e : Fin 4) (d s : BitVec 4)
  | div (e : Fin 4) (d s : BitVec 4)
  | divu (e : Fin 4) (d s : BitVec 4)
  | neg (e : Fin 4) (d s : BitVec 4)
  | negs (e : Fin 4) (d s : BitVec 4)
  | not (e : Fin 4) (d s : BitVec 4)
  | mulu (e : Fin 4) (d s : BitVec 4)
  | mff (e : Fin 4) (d : BitVec 4)
  | mtf (e : Fin 4) (s : BitVec 4)
  | claim (e : Fin 4) (d : BitVec 4)
  | sig (e : Fin 4) (s : BitVec 4)
  | kick (e : Fin 4)
  | sleep (e : Fin 4)
  | reti (e : Fin 4)
  | retx (e : Fin 4)
  | retn (e : Fin 4)
  | addi (e : Fin 4) (d : BitVec 4) (imm : Byte)
  | cmpi (e : Fin 4) (d : BitVec 4) (imm : Byte)
  | ldi (e : Fin 4) (d : BitVec 4) (imm : Byte)
  | ldl (e : Fin 4) (d : BitVec 4) (imm : Word)
  | ld (e : Fin 4) (d s k : BitVec 4)
  | st (e : Fin 4) (d s k : BitVec 4)
  | bcc (e : Fin 4) (cond : BitVec 4) (off : Byte)
  | jmp (e : Fin 4) (target : Word)
  | call (e : Fin 4) (target : Word)
  | jr (e : Fin 4) (s : BitVec 4)
  | callr (e : Fin 4) (s : BitVec 4)
  | wait (e : Fin 4) (d s t : BitVec 4)
  | waitTimeout (e : Fin 4)
  | commitInstr (e : Fin 4) (d s : BitVec 4)
  | abortInstr (e : Fin 4) (d s : BitVec 4)
  | ureqSetv (e : Fin 4) (d s : BitVec 4)
  | ureqOn (e : Fin 4) (d s : BitVec 4)
  | ureqOff (e : Fin 4) (d s : BitVec 4)
  | trap (e : Fin 4) (imm : Byte)
  | illegal (e : Fin 4)
  -- engine entries, cache and debug (09_recipe_engines.md)
  | exceptionEntry (e : Fin 4)
  | interruptEntry (e : Fin 4)
  | nmiEntry (e : Fin 4)
  | wdog (e : Fin 4)
  | engineStop (e : Fin 4)
  | lineFill (e : Fin 4) (f : Fill)
  | inv (r : Req)
  | dbgHalt (r : Req) (e : Fin 4)
  | haltTaken (e : Fin 4)
  | dbgResume (r : Req) (e : Fin 4)
  | step (r : Req) (e : Fin 4)
  -- interrupt router (10_interrupt_router.md)
  | irqPendWrite (r : Req) (w : Fin 24) (val : Word)
  | irqDoorbell (r : Req) (val : Word)
  | irqClaimA (r : Req) (lineB : Bool)
  | irqCmplA (r : Req) (lineB : Bool) (val : Word)
  | irqCmplE (r : Req) (val : Word)
  | extIrqLevelChange (n : Fin 8) (level : Bool)
  | deepSleepEnter
  | deepSleepExit (badPend badEn : List Nat) (badRest : List RetWord)
  -- taps and measurement (11_taps_and_measurement.md)
  | tapOpen (r : Req)
  | tapClose (r : Req)
  | tapInfo (r : Req)
  | tapPop (r : Req) (val : Word) (ue : Bool)
  | conversionEnd (c : Fin 8) (smp : Sample)
  | hushWaitTimeout (c : Fin 8) (n : Fin 16)
  | extrefLoss
  | extrefReturn
  -- device ring (12_device_ring.md)
  | ringCycleTx (ring1 : Bool) (inst : Fin 35840) (pad : Fin 3)
  | ringCycleRx (x : RingRx)
  | ringRequestRx
  | ringResponseRx
  | estopTxEnd
  | laneUp (n : Fin 4)
  | laneDown (n : Fin 4)
  | wrapEnd (east : Bool)
  | masterElected (id : Byte)
  | timeLoss
  | ppsInEdge (inst : Nat)
  | ppsLoss
  | ppsOut (rise : Bool)
  | ringBarrierClear (b : Byte)
  | ringRd (r : Req)
  | ringWr (r : Req)
  | ringCmd (r : Req)
  | ringTset (r : Req)
  | ringTsetApply
  | rtmo (k : Nat)
  | lanenClr (r : Req) (n : Fin 4) (val : Word)
  -- floor bus (13_floor_bus.md)
  | beaconTx (intact : Bool)
  | beaconRx (b : List FloorChar) (err : Int)
  | slotTx (intact : Bool)
  | frameRx (slot : Byte) (err : Int) (f : List FloorChar)
  | stopFrameTx
  | stopRecognised (highBefore : Bool) (start low : Nat)
  | floorCycleEnd
  | seekTimeout (intact : Bool)
  | stuck
  | stuckEnd
  | floorBarrierClear (b : Byte)
  | flrRd (r : Req)
  | flrWr (r : Req)
  | flrCmd (r : Req)
  | flrRtmo (k : Nat)
  | flrClr (r : Req) (val : Word)
  -- charger and power path (14_charger_and_power_path.md)
  | monitorReading (vbat vin : Word) (vsns : Int) (ntc bias : Nat) (limited : Bool)
  | qualifyEnd
  | prechargeTimeout
  | fastTimeout
  | topoffEnd
  | suspendEnd
  | mpptScan
  | scandone (samples : List (Word × Word × Word))
  | mpptStep
  | batteryAbsentTimeout
  | inputPathChange (vinMv vsysMv : Nat)
  | batteryPathChange (batMv sysMv : Nat)
  | vinOv
  | pathFlt (detail : Byte)
  | batRev
  | batRevHoldEnd
  | ntcOpen
  | ntcShort
  | chgRestart (r : Req)
  -- SPI ports (15_spi_ports.md)
  | xgo (r : Req) (val : Word)
  | xdone (rx : List Byte)
  | sptCsFall (mode3 : Bool)
  | sptReadCmd (sdi : List Bool)
  | sptWriteCmd (sdi : List Bool)
  | sptReadFrame
  | sptWordRead
  | sptWriteFrame (sdi : List Bool)
  | sptWordApplied
  | sptCsRise (inside : Bool)
  -- I2C ports and the UART (16_i2c_and_uart.md)
  | i2caPointerSet (addr : BitVec 7) (ptr : Word)
  | i2caWordWrite (val : Word)
  | i2caWordRead (acked : Bool)
  | mgo (r : Req) (p : I2cPort) (val : Word)
  | recov (lows : Nat)
  | mdone (p : I2cPort) (how : I2cEnd) (nbytes : Fin 32) (rx : List Byte)
  | arblost (p : I2cPort) (nbytes : Fin 32)
  | i2cLineTimeout (p : I2cPort) (sda : Bool) (nbytes : Fin 32)
  | i2cCfgApply (p : I2cPort)
  | uartCharRx (samples : List (Bool × Bool × Bool))
  | uartCharTx
  | uartRxd (r : Req)
  | uartTxd (r : Req) (val : Word)
  | uartCfgApply
  | consoleRead (frame : List Byte)
  | consoleWrite (frame : List Byte)
  | cto
  -- timers and the RTC (17_timers_and_rtc.md)
  | timerTick (n : Fin 8)
  | start (r : Req) (n : Fin 8)
  | stop (r : Req) (n : Fin 8)
  | timerWriteLands (n : Fin 8) (which : TimerWord)
  | tbLocked
  | tbLock
  | rtcOsc
  | rtcSecond
  | rtcSubRead (r : Req)
  | set (r : Req)
  | cd
  | swover (aonMv : Nat)
  | swback (aonMv : Nat)
  | rtcRestart
  | timeSeed (r : Req)
  | deviceTimeSeed
  -- OTP (18_otp_and_kiln.md)
  | kiln (r : Req)
  | kilnDone (weakA weakB missA missB : Word) (endedAfter : Option (Fin 33))
  | otpMread (r : Req)
  | otpScan (r : Req)
  -- proof and boundary scan (19_proof.md)
  | proofRun (r : Req)
  | proofAbort (r : Req)
  | proofDone (sig : BitVec 32) (sramFail poolFail : Bool)
  | proofTimeout
  | extest (cells : List Bool)
  | samplePreload (cells : List Bool)
  | highz
  | bypass (code : Option (BitVec 4))
  | engdbg (dr : BitVec 34)
  -- rows added at the end of the table
  | serOkRise (serMv seraMv : Nat)
  | ilim (n : Fin 16) (phase : Fin 4) (imon left : Nat)
  | prbsLock (n : Fin 4) (locked : Bool) (errors : Nat)
  | i2caStopCondition (odd stop : Bool)
  deriving DecidableEq, Repr

end Sys2Proof
end

