-- ==== Sys2Proof/Config.lean ====
section
/-! DEFINITION. The values the manual leaves open, as constants with no body: nothing can be proved about the value of
one. Each is applied to the model's counter of free values (State.fresh), so each use is a fresh value. -/

namespace Sys2Proof.Config

/-- Whether a telemetry sample is rounded up to the next whole LSB (the manual states no rounding, R391).
DESIGN CHOICE: a free value, log entry 5. -/
opaque freeRoundUp : Nat → Bool

/-- What a weak OTP bit reads at the normal level (R628 says it may read either way).
DESIGN CHOICE: a free value, log entry 5. -/
opaque freeWeakBits : Nat → Word

/-- The part of a slew applied in one timebase cycle, before the bound of 100 ppm (R445 gives only the bound).
DESIGN CHOICE: a free value, log entry 5. -/
opaque freeSlewStep : Nat → Nat

/-- Subsecond and unstated readings of an interrupted kiln: which of the bits in progress read 1 at a margin
(R627: they may be weak in either copy). DESIGN CHOICE: a free value, log entry 5. -/
opaque freeCellBits : Nat → Word

/-- The TAG field of a CHANGED record, which reports a transition that carried no TAG (R216, R217).
DESIGN CHOICE: a free value, log entry 5. -/
opaque freeTag : Nat → BitVec 2

/-- The junction temperature in °C as one timebase cycle finds it. DESIGN CHOICE: a free value, log entry 5. -/
opaque freeDie : Nat → BitVec 9

/-- The subsecond count as one timebase cycle finds it: its passage is reported by no command (R604).
DESIGN CHOICE: a free value, log entry 5. -/
opaque freeSub : Nat → BitVec 15

/-- How an analogue threshold judges an input within its tolerance (R688). DESIGN CHOICE: a free value, log entry 5. -/
opaque freeTrip : Nat → Bool

/-- The dummy cycles of a discovered read mode whose wait-state and mode-clock counts do not fit SPH_RDCFG.DUMMY (R532 gives
no value then). DESIGN CHOICE: a free value, log entry 5. -/
opaque freeDummy : Nat → BitVec 4

/-- I2CA_ST.STRETCH while a host's transaction addresses the port: when the port holds SCL no command reports (R564, R566).
DESIGN CHOICE: a free value, log entry 5. -/
opaque freeStretch : Nat → Bool

/-- Whether 10 MHz is present on REF10M_IN when the lock is lost (TB_ST.REFOK; R590 does not tie them).
DESIGN CHOICE: a free value, log entry 5. -/
opaque freeRefOk : Nat → Bool

/-- RING_OFS or RING_MPD where the result does not fit 32 bits (R444 gives no value then).
DESIGN CHOICE: a free value, log entry 5. -/
opaque freeOffset : Nat → BitVec 32

/-- W8 and W9 of a block where the nominal sample spacing of 1 s or more does not fit them (R403 gives no value then).
DESIGN CHOICE: a free value, log entry 5. -/
opaque freeSpacing : Nat → BitVec 32

/-- The bytes that a forwarding device sends where the codeword that brought them was discarded (R423 says no more): by the
counter of free values and the byte's place. DESIGN CHOICE: a free value, log entry 5. -/
opaque freeSent : Nat → Nat → Byte

/-- A floor timing error where the measured one does not fit its 16-bit register (R474, R481 give no value then).
DESIGN CHOICE: a free value, log entry 5. -/
opaque freeFloorErr : Nat → Word

/-- I2Cx_ST.BUSBUSY while a transfer of the port's own controller waits or runs: no command reports its START.
DESIGN CHOICE: a free value, log entry 5. -/
opaque freeBusy : Nat → Bool

/-- RESULT and NBYTES of a transfer of I2C-B that a fence ends (R572 names no result for it).
DESIGN CHOICE: a free value, log entry 5. -/
opaque freeEnd : Nat → BitVec 8

/-- FLAGS.IDX of an SPI target frame after sixteen words: COUNT + 1 does not fit the field (R548).
DESIGN CHOICE: a free value, log entry 5. -/
opaque freeIdx : Nat → BitVec 4

/-- The level of a ball or an analogue condition that no command reports, as one timebase cycle finds it (log entry 1):
the current limits of R687, SWnn_FLT_N, and another party's release of
STOP_N. DESIGN CHOICE: a free value, log entry 5. -/
opaque freeLevel : Nat → Bool

/-- A voltage that no command reports, as one timebase cycle finds it, as a code of 100 µV: at the sense pins of a rail or of its
tracking source (R123, R137), and at an LDO's output (R157). DESIGN CHOICE: a free value, log entry 5. -/
opaque freeSense : Nat → Word

/-- How far a rail's ramp has come as one timebase cycle finds it, in switching island cycles (R119).
DESIGN CHOICE: a free value, log entry 5. -/
opaque freeRamp : Nat → Nat

/-- The levels of the GPIO balls as one timebase cycle finds them. DESIGN CHOICE: a free value, log entry 5. -/
opaque freePins : Nat → Byte

/-- A monitor reading that its register cannot hold, or that R507 gives no temperature for.
DESIGN CHOICE: a free value, log entry 5. -/
opaque freeReading : Nat → Word

/-- Whether VBAT_RTC still keeps the RTC island through a power-on reset where VBAT_OK reads 0: its operating range
reaches below that threshold (R258, R613). DESIGN CHOICE: a free value, log entry 5. -/
opaque freeVbat : Nat → Bool

/-- What a loss of VSYS leaves of a last-fault record that was due: whether its write had begun, and of each word whether
it was written (R154). DESIGN CHOICE: a free value, log entry 5. -/
opaque freeTorn : Nat → Bool

/-- A word of the router's retention registers that fails its check at the end of a deep sleep, where R379 gives the
restored value for enable and pending words alone. DESIGN CHOICE: a free value, log entry 5. -/
opaque freeRetained : Nat → Word

/-- What a read of recipe SRAM or of the buffer pool meets in the word: 1 a single-bit error that it corrects, 2 an uncorrectable
one, and otherwise none. No command reports it (R232). DESIGN CHOICE: a free value, log entries 5 and 78. -/
opaque freeEcc : Nat → BitVec 2

/-- The word that a read with an uncorrectable error delivers (R232 gives none). DESIGN CHOICE: a free value, log entry 5. -/
opaque freeEccWord : Nat → Word

end Sys2Proof.Config
end

