-- ==== Sys2Proof/Machine/State.lean ====
section
/-! DEFINITION. The state of the block, as plain data: everything the manual gives the LN9128, and the queue of
commands that are waiting. -/

namespace Sys2Proof.Machine

open Sys2Proof

/-- Sparse data by key: pairs of key and value, keys strictly rising, no value equal to what an unlisted key reads as.
Read and written only by `mget` and `mset` (Machine/Ops.lean). -/
abbrev Map (α : Type) := List (Nat × α)

/-- Why the block stops. No meaning of this model raises a fault: the manual gives every command an effect, and a
rejected access answers an error code (R38, R48). -/
inductive Fault where
  /-- Raised by nobody; the type of stops is kept for the host's interface. Safe: it never ends a run. -/
  | unused
  deriving DecidableEq, Repr

/-- Why the block gives a command no meaning. -/
inductive Refusal where
  /-- Raised by `exec` for a command that has no meaning yet. Safe: nothing is claimed of such a command. -/
  | notModelled (mnemonic : String)
  deriving DecidableEq, Repr

/-- OWNER field of a STATE word (R22). -/
inductive Owner where
  | management
  | port
  | engine
  | sequencer
  deriving DecidableEq, Repr

/-- The STATE word of a unit and what UNIT_INSPECT shows beside it (R22, R27; 01_architecture.md, "Unit
operations"). -/
structure UnitSt where
  code : BitVec 4 := 0
  owner : Owner := .management
  oidx : BitVec 4 := 0
  fenced : Bool := false
  busy : Bool := false
  gen : Byte := 0
  /-- source of the last transition: 0 management, 1 load port, 2 engine, 3 sequencer, 4 fault reaction,
  5 cold stop -/
  src : BitVec 4 := 0
  deriving DecidableEq, Repr

/-- The start-up phases (R79), with the two before PHASE is defined. -/
inductive Phase where
  | supply
  | oscillator
  | otpSensing
  | retention
  | load
  | ready
  | running
  | testHold
  deriving DecidableEq, Repr

/-- What caused the chip reset in force (R81). -/
inductive RstCause where
  | pin
  | soft
  | fault
  deriving DecidableEq, Repr

/-- A command of the SPI host to the memory (15_spi_ports.md, R538 to R542). -/
structure SphCmd where
  op : Byte
  /-- SPH_CLK.DIV at its start -/
  div : Nat
  /-- byte address, where the command has one, and its bytes -/
  addr : Option Nat
  addrBytes : Nat
  dummy : Nat
  /-- lines of the data phase -/
  lines : Nat
  /-- bytes it reads, and the bytes it sends -/
  rd : Nat
  wr : List Byte
  deriving DecidableEq, Repr

/-- Start-up and the loader (03_start_up_and_grist.md). -/
structure Boot where
  phase : Phase := .supply
  /-- the chip reset in force, and its cause -/
  reset : Option RstCause := none
  /-- level of TESTMODE at the release of chip reset (R61) -/
  testmode : Bool := false
  /-- the start follows a power-on reset, so the retention domain is initialised (R79 phase 4) -/
  fromPor : Bool := true
  /-- the status poll of the load has ended and the loader reads (R90) -/
  polled : Bool := false
  /-- the flash commands of the load so far, oldest first (R87, R90, R532) -/
  cmds : List SphCmd := []
  /-- COLD_STOP entries that wait for this start's RESET entry (R296) -/
  stopDue : List Word := []
  /-- running digest, before the final XOR (R106) -/
  crc : BitVec 32 := 0xFFFFFFFF
  bytes : Nat := 0
  /-- index of the next record (R105) -/
  index : Nat := 0
  deriving DecidableEq, Repr

/-- What exists once for each requester (R671). -/
structure ReqSt where
  /-- last-error register, GLB_LASTERR_SELF (R49, R671) -/
  lasterr : Word := 0
  /-- CMD_OP to CMD_RES3 by offset from 0x7000 -/
  bank : Map Word := []
  /-- CMD_SEQ of the last completed command (R45) -/
  last : Option Word := none
  /-- latches of _HI words by the address of the _LO word (R7) -/
  latch : Map (Option Word) := []
  /-- stages of _HI words by the address of the _LO word (R9) -/
  stage : Map (Option Word) := []
  /-- device-time snapshot (R52) -/
  tsnap : Option (BitVec 64) := none
  /-- calendar snapshot: CAL0, CAL1, CAL2 (R604) -/
  csnap : Option (Word × Word × Word) := none
  cgrp : BitVec 3 := 0
  selDev : Byte := 0
  selH : Word := 0xFFFF
  otpSel : Byte := 0
  deriving DecidableEq, Repr

/-- Who holds staged entries (R267): a unit, or one of the holders that are no unit (R298, "Units"). -/
inductive Holder where
  | unit (n : Nat)
  | seq
  | mea
  | ring
  | flr
  | tb
  deriving DecidableEq, Repr

/-- One entry of the draught (R265). -/
structure DEntry where
  addr : Nat
  word : Word
  group : BitVec 3
  /-- staged by the grist loader (R103) -/
  loader : Bool := false
  deriving DecidableEq, Repr

/-- A holder that is in the draught, its group, and its GEN when it first entered (R31, R267). -/
structure DHolder where
  holder : Holder
  group : BitVec 3
  gen : Byte
  deriving DecidableEq, Repr

/-- What a switching rail holds beside its STATE word and registers (04_rails.md). -/
structure Rail where
  pg : Bool := false
  hushed : Bool := false
  /-- switching island cycles left of a period in which this controller's current limit has acted (R149) -/
  ilim : Nat := 0
  fltn : Bool := false
  /-- stopped since the last switch-on: active discharge is applied where DISCH is 1 (R189) -/
  disch : Bool := false
  /-- the start check of R148 has passed since the last entry to STARTING -/
  checked : Bool := false
  /-- this start or stop follows the tracking source (R135 to R139) -/
  tracking : Bool := false
  /-- state code to enter at the first period boundary after the hush (R147) -/
  after : Option (BitVec 4) := none
  /-- set point before the last request or commit (R122, R150) -/
  oldV : Word := 0
  /-- registers 0x01 to 0x10 as they act until that boundary, where a transition was accepted during the hush (R147) -/
  eff : Option (List Word) := none
  /-- PER and PHASE in effect (R129) -/
  per : Word := 0x1F4
  phase : Word := 0
  deriving DecidableEq, Repr

/-- What an LDO holds beside its STATE word and registers (04_rails.md). -/
structure Ldo where
  pg : Bool := false
  ilim : Bool := false
  /-- stopped since the last switch-on: the pull-down holds the output where DISCH is 1 (R160) -/
  disch : Bool := false
  deriving DecidableEq, Repr

/-- The events in progress of a supervisor (R163). -/
structure Sup where
  ov : Bool := false
  uv : Bool := false
  deriving DecidableEq, Repr

/-- One slot of a load command port (R215 to R218). -/
structure LcpSlot where
  /-- transitions that await their outcomes, oldest first: TAG and rail -/
  inflight : List (BitVec 2 × Nat) := []
  /-- outcome record shown in LCPn_OUTm -/
  record : Word := 0
  unrep : Bool := false
  /-- DONE and NACK records that wait for the first one's report -/
  queue : List Word := []
  /-- a CHANGED record that waits -/
  changed : Option Word := none
  deriving DecidableEq, Repr

/-- One load command port (06_load_command_ports.md). -/
structure LcpPort where
  /-- consecutive requests whose CRC failed (R209) -/
  crcRun : Nat := 0
  /-- a transaction in progress -/
  active : Bool := false
  /-- the last eight samples of LCPn_DAT, the newest in bit 0 (R203) -/
  hist : Byte := 0xFF
  /-- bits of a request received after its START, while it is not whole -/
  part : List Bool := []
  /-- the last response frame (R206), and whether the transaction that it answers has been neither cut short nor followed by
  another -/
  resp : BitVec 32 := 0
  drives : Bool := false
  deriving DecidableEq, Repr

/-- Flags and count of one fault source (R247). -/
structure FSrc where
  present : Bool := false
  pend : Bool := false
  transient : Bool := false
  count : Byte := 0
  deriving DecidableEq, Repr

/-- An occurrence that a detector has reported and the collector has not taken (R234). -/
structure Occ where
  cls : Nat
  src : Nat
  det : Byte
  /-- the named unit (R232) -/
  unit : Option Nat
  /-- its GEN at detection -/
  gen : Byte
  time : BitVec 64
  inj : Bool
  /-- value of SEQ_STOP_CAUSE of the cold stop it caused, to be logged after its FAULT entry (R293) -/
  stop : Option Word
  /-- interrupt sources held for it (R286) -/
  hold : BitVec 384
  deriving DecidableEq, Repr

/-- The sequencer (05_sequencing_and_cold_stop.md). -/
structure SeqSt where
  /-- SEQ_ST.STATE: 0 IDLE, 1 POWERING, 2 UP, 3 SHUTTING, 4 DOWN, 5 FAILED, 6 STOPPED -/
  st : BitVec 3 := 0
  table : Bool := false
  step : Nat := 0
  waiting : Bool := false
  retry : Bool := false
  /-- rail codes whose action request has not been answered otherwise than E_BUSY (R178) -/
  left : List Nat := []
  /-- rails that a switch-on of this step put in STARTING: they count as OFF for R135 -/
  started : List Nat := []
  /-- the step at `step` has been entered -/
  entered : Bool := false
  deriving DecidableEq, Repr

/-- An open-drain line shared with other devices: STOP_N or ERR_N (R74, R197, R255). -/
structure Line where
  drv : Bool := false
  /-- STOP_N: input masked after a release (R197); ERR_N: the minimum low time is running (R255) -/
  timed : Bool := false
  /-- another party pulls the line low -/
  low : Bool := false
  deriving DecidableEq, Repr

/-- An exception, or a TRAP, whose vector the engine has not entered yet (R330, R331, R335). -/
inductive Exc where
  | illegal
  | fetch
  | divzero
  | trap
  deriving DecidableEq, Repr

/-- Rails, LDOs and their registers as they stood when the cold stop of the present timebase cycle struck: a detection
of the same cycle is judged on them (04_rails.md, "Corner cases"). -/
structure StopSnap where
  units : Map UnitSt
  rails : Map Rail
  ldos : Map Ldo
  regs : Map Word
  deriving DecidableEq, Repr

/-- A recipe engine (09_recipe_engines.md). -/
structure Eng where
  pc : Word := 0
  flags : BitVec 7 := 0
  g : Map Word := []
  iact : Bool := false
  exc : Bool := false
  nmiact : Bool := false
  /-- an NMI waits to be taken -/
  nmipend : Bool := false
  /-- ENGn_ST.NMIPEND: it arrived while NMIACT was 1 (R333) -/
  nmiheld : Bool := false
  /-- exception raised, and whether the collector has taken its occurrence; a TRAP has none to take (R336) -/
  xcpt : Option (Exc × Bool) := none
  /-- WAIT in progress: destination register, source and time limit in µs -/
  waiting : Option (BitVec 4 × Word × Word) := none
  halted : Bool := false
  haltReq : Bool := false
  /-- a STEP waits for its instruction (R346) -/
  stepArm : Bool := false
  /-- the next instruction runs though a breakpoint names it: the engine has just been resumed or stepped there -/
  skipBp : Bool := false
  /-- RUN was committed to 0 (R302) -/
  stopReq : Bool := false
  /-- watchdog count as last reloaded, in units of 100 µs (R337) -/
  wdog : Word := 0
  deriving DecidableEq, Repr

/-- One line of the shared cache (R340); lines are listed most recently used first. -/
structure CLine where
  base : Word
  words : List Word
  deriving DecidableEq, Repr

/-- Router state that deep sleep saves (R377); IRQ_EXTCFG and IRQ_EXTFLG stay in the register map throughout. -/
structure IrqSaved where
  pend : BitVec 384
  en : Map (BitVec 384)
  clm : Map (BitVec 384)
  pres : Map (Option Nat)
  taken : Map Bool
  holds : List (Nat × BitVec 384)
  deriving DecidableEq, Repr

/-- The interrupt router (10_interrupt_router.md). Targets 0 to 3 are RE0 to RE3, 4 and 5 the host lines. -/
structure Irq where
  pend : BitVec 384 := 0
  /-- live assertions as the router last saw them (R351, R352) -/
  asrt : BitVec 384 := 0
  en : Map (BitVec 384) := []
  /-- claimed bits of each target -/
  clm : Map (BitVec 384) := []
  /-- P(t) (R361) -/
  pres : Map (Option Nat) := []
  /-- P(t) has been claimed by another target since it was set (R363) -/
  taken : Map Bool := []
  /-- eligible set of each target when P(t) was last judged -/
  elig : Map (BitVec 384) := []
  /-- held sources with the class whose claim or acknowledgement ends the hold (R371) -/
  holds : List (Nat × BitVec 384) := []
  /-- sources held for occurrences that the collector has not taken yet (R286), as the router last saw them -/
  late : BitVec 384 := 0
  asleep : Bool := false
  saved : Option IrqSaved := none
  deriving DecidableEq, Repr

/-- A sample block (R403). -/
structure Block where
  handle : Word
  form : Bool
  gap : Bool
  nh : Bool
  first : Bool
  refInt : Bool
  seq : Word
  lost : Word
  stamp : BitVec 64
  spacing : BitVec 32
  /-- samples in order, as words -/
  data : List Word
  /-- it came from its account's reservation (R411) -/
  resv : Bool
  deriving DecidableEq, Repr

/-- An open tap (R392, R396). -/
structure Tap where
  conv : Nat
  src : Byte
  every : Word
  form : Bool
  hush : Bool
  /-- 0 local queue, 1 ring stream, 2 engine variable -/
  dest : BitVec 2
  rdyirq : Bool
  arg4 : Word
  arg5 : Word
  /-- account its blocks are charged to (R410) -/
  acct : Nat
  /-- samples of its source still to pass before it takes one (R385) -/
  skip : Nat
  cur : Option Block
  queue : List Block
  seq : Word
  /-- samples lost since its last block, and since opening -/
  lost : Word
  lostAll : Word
  gapNext : Bool
  firstNext : Bool
  /-- sample counter of an engine destination (R409) -/
  count : Byte
  deriving DecidableEq, Repr

/-- A collector queue (R415). -/
structure ColQ where
  dev : Byte
  handle : Word
  blocks : List Block
  gap : Bool
  lost : Word
  deriving DecidableEq, Repr

/-- What the conversion in progress has of the hush that its source asks for (R401, R402). -/
inductive ConvHush where
  /-- no hushed tap on the source -/
  | unasked
  /-- requested, and not begun -/
  | asked
  /-- begun: the conversion runs hushed -/
  | hushed
  /-- refused, late, or ended by droop: the conversion is taken unhushed -/
  | unhushed
  deriving DecidableEq, Repr

/-- A measurement converter as its last period boundary left it (R383, R387). -/
structure Conv where
  /-- FILT and REF (bits of MEA_MCn_CFG) and RATE in effect -/
  cfg : Word := 0
  rate : Word := 0
  /-- distinct sources that it serves, in ascending code; none while it is not RUNNING -/
  srcs : List Byte := []
  muxed : Bool := false
  /-- which of them the conversion in progress is of -/
  slot : Nat := 0
  hush : ConvHush := .unasked
  /-- the rail of which the hush was requested -/
  rail : Nat := 0
  /-- RATE times the timebase cycles since the last period boundary (R382) -/
  acc : Nat := 0
  deriving DecidableEq, Repr

/-- Measurement: taps, collector queues and the pool (11_taps_and_measurement.md). -/
structure MeaSt where
  taps : Map (Option Tap) := []
  gen : Map (BitVec 9) := []
  colq : List ColQ := []
  /-- blocks held from the reservation, and from the shared remainder, by account -/
  heldR : Map Nat := []
  heldS : Map Nat := []
  extrefOk : Bool := false
  refReady : Bool := false
  convs : Map Conv := []
  deriving DecidableEq, Repr

/-- A remote request that awaits its response (R457, R500). -/
structure PendReq where
  r : Req
  kind : Byte
  dst : Byte
  tag : Byte
  /-- which request it is -/
  no : Nat
  /-- it has been sent -/
  sent : Bool := false
  deriving DecidableEq, Repr

/-- A stream block being received in fragments (R460). -/
structure Frag where
  src : Byte
  seq : Byte
  next : Nat
  /-- number of the cycle that brought the last fragment -/
  cyc : BitVec 32
  data : List Word
  deriving DecidableEq, Repr

/-- A ring lane beside its STATE word and registers (R431 to R436). -/
structure Lane where
  /-- error counter (R433) -/
  cnt : Nat := 0
  prbsLock : Bool := false
  /-- it has been UP since it was enabled (R436) -/
  wasUp : Bool := false
  /-- arrival of the last marker whose beacon was right, its cycle number, and the uncorrectable codewords of the last
  cycle (R428) -/
  rxAt : BitVec 64 := 0
  rxCyc : BitVec 32 := 0
  rxBad : Nat := 0
  /-- a transmit lane's last markers: cycle number, and device time in units of 2^-32 s / 390625, newest first (R443) -/
  sentAt : List (BitVec 32 × Int) := []
  deriving DecidableEq, Repr

/-- A block on its way in four fragments (R460): the account it came from, and its 64 words. -/
structure TxBlock where
  dst : Byte
  seq : Byte
  frag : Nat
  words : List Word
  acct : Nat
  resv : Bool
  deriving DecidableEq, Repr

/-- What one ring brought last: the hops of its beacon, its TVALID and WRAP, and what the beacons of the last cycles said. -/
structure SideRx where
  hops : Option Byte := none
  tvalid : Bool := false
  wrap : Bool := false
  /-- number of the last cycle and its barrier slice, counted on where its beacon could not be read -/
  cyc : BitVec 32 := 0
  slice : BitVec 4 := 0
  /-- cycles in a row whose beacon had LOSREP set, up to 4 (R432) -/
  losRun : Nat := 0
  /-- MASTER of the last beacon, and the cycles in a row that brought it, up to 64 (R438) -/
  named : Option Byte := none
  namedRun : Nat := 0
  deriving DecidableEq, Repr

/-- A cycle that waits to be forwarded (R426): what its beacon brought, its emergency container, and its slots and
containers as bytes. -/
structure HeldCycle where
  cyc : BitVec 32
  hops : Byte
  wrap : Bool
  slice : BitVec 4
  emergency : List Byte
  slots : List (List Byte)
  conts : List (List Byte)
  deriving DecidableEq, Repr

/-- A cycle that this device sent (R425, R427). -/
structure SentCycle where
  beacon : Beacon
  emergency : List Byte
  slots : List (List Byte)
  conts : List (List Byte)
  /-- the lane was muted: it carried the marker, the beacon and the emergency container only (R435) -/
  muted : Bool
  pad : Fin 3
  deriving DecidableEq, Repr

/-- The device ring (12_device_ring.md). -/
structure Ring where
  /-- the island is out of reset (R66) -/
  live : Bool := false
  /-- RING_ST.UP and WRAP as last judged, for their change flags -/
  up : Bool := false
  wrap : Bool := false
  dup : Bool := false
  /-- loops at the west and the east port while a link is broken (R436, R437) -/
  loopW : Bool := false
  loopE : Bool := false
  master : Option Byte := none
  /-- candidates heard in the last 16 cycles: priority, ID and the cycles since (R438) -/
  cands : List (BitVec 2 × Byte × Nat) := []
  /-- cycles since a beacon named the elected master, up to 16 (R439) -/
  nameAge : Nat := 0
  /-- cycles in a row in which the link at the west and at the east port was good, up to 1000 (R437) -/
  goodW : Nat := 0
  goodE : Nat := 0
  /-- the master was lost and none has been elected since (R439) -/
  lost : Bool := false
  /-- cycles received with the ring UP and TIME_OK 0, up to 1 000 001 (R446) -/
  badRun : Nat := 0
  west : SideRx := {}
  east : SideRx := {}
  /-- last cycle number received, and the last sent -/
  cyc : BitVec 32 := 0
  txCyc : BitVec 32 := 0
  lanes : Map Lane := []
  /-- cycles since a device's container arrived, 16 when absent (R430) -/
  age : Map Nat := []
  /-- barrier each device waits at (R450) -/
  waits : Map (Option Byte) := []
  release : BitVec 256 := 0
  /-- cycles in a row in which no device waited at a released barrier, up to 1000 (R450) -/
  barRun : Map Nat := []
  pend : List PendReq := []
  /-- number of the next request -/
  reqNo : Nat := 0
  /-- messages waiting for an empty slot: responses, requests; and those placed in the last cycle -/
  outR : List Msg := []
  outQ : List (Nat × Msg) := []
  sentM : List Msg := []
  /-- messages taken from slots, oldest first, not acted on yet (R453) -/
  inM : List Msg := []
  /-- last executed TAG and response by source device (R456) -/
  kept : Map (Option (Byte × Msg)) := []
  /-- the CMD request whose operation runs in the ring's bank, to be answered when it completes -/
  job : Option Msg := none
  frags : List Frag := []
  /-- streams received: source device, handle, and the sequence number of the last whole block (R460) -/
  streams : List (Byte × Word × Word) := []
  tx : Option TxBlock := none
  /-- this device's telemetry container of the cycle being sent -/
  own : Option Container := none
  /-- cycles received that wait to be sent on each ring, oldest first (R426) -/
  held : Map (List HeldCycle) := []
  /-- the last cycle that this device sent on each ring -/
  sent : Map (Option SentCycle) := []
  /-- telemetry containers that this device wrote on each ring and that have not come round yet, oldest first: what it did not
  write it can tell (R463) -/
  wrote : Map (List (List Byte)) := []
  /-- of each ring: how many of them may be missing before the next that comes round there; none where that is not known (R463) -/
  due : Map (Option Nat) := []
  /-- this device's cold stop writes the alarm, and the cycles so far on each ring (R461) -/
  estopTx : Bool := false
  estopN : Map Nat := []
  /-- the master relays the alarm: 0 no alarm, 1 relaying, 2 the 256 cycles are over; and the cycles so far on each ring
  (R461) -/
  relayed : BitVec 2 := 0
  relayN : Map Nat := []
  /-- consecutive cycles received without the alarm, up to 512 (R462) -/
  quiet : Nat := 0
  /-- consecutive measurements with θ below 100 ns, up to 16 (R446) -/
  okRun : Nat := 0
  /-- seconds value waiting for the next whole second, and its requester while its bank waits (R441) -/
  tset : Option (BitVec 32 × Option Req) := none
  /-- level of PPS_OUT (R449) -/
  pps : Bool := false
  deriving DecidableEq, Repr

/-- What the floor port puts on the bus (R472, R488). -/
inductive FloorOut where
  | frame (bs : List Byte)
  | stop
  deriving DecidableEq, Repr

/-- The floor bus port (13_floor_bus.md). -/
structure Floor where
  /-- the port has slot timing (FLR_ST.TIMED) -/
  timed : Bool := false
  master : Bool := false
  dup : Bool := false
  holdMute : Bool := false
  cntMute : Bool := false
  /-- FLR_ST.MUTE as last judged, for its change flag -/
  mute : Bool := false
  hold : Nat := 0
  tx : Nat := 0
  rx : Nat := 0
  masterId : Option Byte := none
  /-- cycles since the last valid beacon, up to 8 -/
  bAge : Nat := 0
  cyc : BitVec 32 := 0
  /-- length of a cycle as trimmed to the master's rate, in units of 12.5 ns of this device's timebase (R477) -/
  interval : Nat := 800000
  -- what this cycle has seen so far
  sawBeacon : Bool := false
  discarded : Bool := false
  selfEdge : Bool := false
  reported : Bool := false
  ownBad : Bool := false
  ownBeaconBad : Bool := false
  slotIntact : Bool := false
  /-- this device sent a CLAIM -/
  claimed : Bool := false
  /-- rank of the sender of this cycle's beacon: priority and ID -/
  heard : Option (BitVec 2 × Byte) := none
  /-- lowest slot discarded this cycle, and early (1) or late (2) (R475) -/
  disc : Option (Byte × BitVec 2) := none
  /-- the same of the previous cycle, to be reported -/
  rep : Option (Byte × BitVec 2) := none
  /-- best CLAIM heard or sent this cycle: priority and ID -/
  claim : Option (BitVec 2 × Byte) := none
  claiming : Bool := false
  /-- the claimer sends beacons from the cycle after the next (R478) -/
  takeOver : Bool := false
  /-- the master has a CLAIM to yield to, and sends its last beacons in this cycle (R478) -/
  yield : Bool := false
  yieldNow : Bool := false
  /-- consecutive cycles without a valid beacon, with own beacon not read back, with own frame not read back,
  and without an intact frame in the own slot -/
  missRun : Nat := 0
  badBeacons : Nat := 0
  badFrames : Nat := 0
  quietSlot : Nat := 0
  age : Map Nat := []
  alarm : BitVec 256 := 0
  waits : Map (Option Byte) := []
  release : BitVec 256 := 0
  /-- cycles in a row in which no device waited at a released barrier, up to 100 (R495) -/
  barRun : Map Nat := []
  pend : List PendReq := []
  reqNo : Nat := 0
  outR : List Msg := []
  outQ : List (Nat × Msg) := []
  kept : Map (Option (Byte × Msg)) := []
  /-- the CMD request whose operation runs in the floor's bank, to be answered when it completes -/
  job : Option Msg := none
  /-- stop frame to send in the next stop window (R198) -/
  stopReq : Bool := false
  sentB : Option FloorBeacon := none
  sentF : Option FloorFrame := none
  /-- what the port sent last -/
  out : Option FloorOut := none
  deriving DecidableEq, Repr

/-- The charger beside its STATE word and registers; times are counted in monitor readings of 100 ms
(14_charger_and_power_path.md, R508). -/
structure Chg where
  vinOk : Bool := false
  ingate : Bool := false
  pathOn : Bool := false
  batp : Bool := false
  scan : Bool := false
  ilimVin : Bool := false
  reason : BitVec 4 := 0
  susp : BitVec 3 := 0
  /-- state a suspension left -/
  left : BitVec 4 := 0
  buckHold : Bool := false
  /-- sum and number of the voltage readings of this second, of the temperature readings of this 10 s interval -/
  vSum : Nat := 0
  vN : Nat := 0
  tSum : Int := 0
  tN : Nat := 0
  /-- sums of the last seven whole 10 s intervals, newest first: 100 TB10 each -/
  tb10 : List Int := []
  /-- VPEAK is valid, and the sum of its second: 10 VPEAK -/
  peakSet : Bool := false
  peak : Nat := 0
  /-- consecutive seconds at or below the trip level -/
  dvRun : Nat := 0
  /-- readings that the current has held at CHG_ICHG, up to the 600 that re-arm −ΔV -/
  fullRun : Nat := 0
  /-- readings since FAST was entered, and of a FAST minute not yet whole -/
  phaseT : Nat := 0
  fastT : Nat := 0
  /-- readings that the input has been absent since a cycle ended, up to the 600 of R512 -/
  inputGone : Nat := 0
  /-- readings left to judge a removed pack after a VMAX end (R516) -/
  vmaxCheck : Nat := 0
  /-- MPPT direction up, and the sum and number of the power readings of the previous second -/
  dirUp : Bool := true
  lastP : Option (Int × Nat) := none
  /-- sum and number of the power readings of the present second (R520), in units of 0.5 mV × 1 mA -/
  pSum : Int := 0
  pN : Nat := 0
  deriving DecidableEq, Repr

/-- A transaction of the SPI target (15_spi_ports.md, R546 to R555). -/
structure Spt where
  active : Bool := false
  mode3 : Bool := false
  crcOn : Bool := false
  zeroFill : Bool := false
  /-- 0 none yet, 1 WRITE, 2 READ, 3 ended -/
  op : BitVec 2 := 0
  /-- words of the transaction and its address -/
  count : Nat := 0
  addr : Word := 0
  /-- words read so far; read words not yet sent; taken words not yet applied, with their addresses -/
  done : Nat := 0
  ready : List Word := []
  held : List (Word × Word) := []
  /-- what earlier transactions left, in the order in which it was taken or asked for (R17, R555): words still to be applied, with
  their addresses, and addresses whose word is still to be read and discarded -/
  late : List (Word × Option Word) := []
  /-- words sent or taken -/
  idx : Nat := 0
  /-- a read of the next word is outstanding -/
  asked : Bool := false
  werr : Bool := false
  /-- the last frame sent carries a word read -/
  word : Bool := false
  /-- DATA of the previous frame, and the last frame sent -/
  prev : Word := 0
  out : BitVec 32 := 0
  deriving DecidableEq, Repr

/-- What a controller transfer puts on the bus (16_i2c_and_uart.md, R569, R573). -/
structure I2cXfer where
  addr : BitVec 7
  /-- bytes it writes, and how many it reads -/
  wr : List Byte
  rd : Nat
  /-- a bus recovery: no address, up to nine SCL pulses and a STOP -/
  recov : Bool
  /-- the SCL pulses that the recovery sent -/
  pulses : Nat := 0
  /-- the requester that started it -/
  by_ : Req
  deriving DecidableEq, Repr

/-- An I2C port (16_i2c_and_uart.md). -/
structure I2c where
  /-- timing settings in effect: CFG, SCLH, SCLL, DTIM, TMO (R562) -/
  live : List Word := [0x0600, 0x003C, 0x0082, 0x1E0A, 0x1919]
  /-- own address in effect (R562, R563) -/
  addr : BitVec 7 := 0
  /-- the host has ended its read with a NACK (R566) -/
  nacked : Bool := false
  /-- the word that the port sends to its host as target (R566, R567) -/
  sent : Word := 0
  /-- the last transfer begun -/
  xfer : Option I2cXfer := none
  /-- a transaction of another controller is on the bus; it addresses this port; and it is being written -/
  busy : Bool := false
  mine : Bool := false
  wr : Bool := false
  mbusy : Bool := false
  /-- it has waited for the bus since its start: its START follows the bus-free condition (R570) -/
  waits : Bool := false
  scl : Bool := false
  sda : Bool := false
  deriving DecidableEq, Repr

/-- The UART (16_i2c_and_uart.md). -/
structure Uart where
  rx : List UartChar := []
  tx : List Byte := []
  /-- a character is being sent -/
  sending : Bool := false
  /-- settings in effect (R580) -/
  cfg : Word := 0x0101
  div : Word := 0x0364
  /-- SEQ of the last console request executed, and the kept response (R584) -/
  seq : Byte := 0
  kept : List Byte := []
  /-- last response sent, and the characters of a request being received (R582) -/
  resp : List Byte := []
  /-- characters of that response still to be sent -/
  left : Nat := 0
  part : List Byte := []
  deriving DecidableEq, Repr

/-- A timer beside its STATE word and registers (17_timers_and_rtc.md). -/
structure Timer where
  run : Bool := false
  bufNew : Bool := false
  out : Bool := false
  /-- a CNT write has landed, in place of the next tick's decrement (R595) -/
  loaded : Bool := false
  /-- live writes on their way into the island (R595) -/
  landing : List (TimerWord × Word) := []
  deriving DecidableEq, Repr

/-- The calendar and the supply of the RTC (17_timers_and_rtc.md, R602, R609). -/
structure Rtc where
  sec : Nat := 0
  min : Nat := 0
  hour : Nat := 0
  day : Nat := 1
  mon : Nat := 1
  year : Nat := 0
  sub : Nat := 0
  valid : Bool := false
  lock : Bool := false
  onbat : Bool := false
  oscok : Bool := false
  deriving DecidableEq, Repr

/-- A kiln in progress (R625), with its requester while the requester's bank waits. -/
structure Kiln where
  r : Option Req
  word : Nat
  bits : Word
  /-- the conditions of R624 failed during the kiln, which ends after the pulse in progress (R626) -/
  ended : Bool := false
  deriving DecidableEq, Repr

/-- OTP cells as they read at the low and the high margin (R628), the values in force, and a kiln in progress. -/
structure Otp where
  lowA : Map Word := []
  highA : Map Word := []
  lowB : Map Word := []
  highB : Map Word := []
  /-- normal-level values taken at OTP sensing, from which the values in use are derived (R85, R630) -/
  sensed : Map Word := []
  /-- normal-level values as OTP_DATA shows them: those of OTP sensing, and of a KILN at its completion (R630) -/
  shown : Map Word := []
  kiln : Option Kiln := none
  deriving DecidableEq, Repr

/-- The test access port (19_proof.md, R641 to R646). -/
structure Jtag where
  ir : BitVec 4 := 0xF
  cells : List Bool := []
  /-- what the boundary register captured in the last scan, from TDI -/
  capt : List Bool := []
  dr : BitVec 34 := 0x200000000
  deriving DecidableEq, Repr

/-- Live supply and temperature readings (02_balls_and_supplies.md, GLB_SUP_ST; 20_limits_and_metrology.md). -/
structure Supply where
  vsysOk : Bool := false
  aonOk : Bool := false
  coreOk : Bool := false
  serOk : Bool := false
  seraOk : Bool := false
  vbatOk : Bool := false
  /-- last reported junction temperature, °C -/
  dieC : Int := 25
  /-- VSYS reversal latch of the RTC island (R257) -/
  revLatch : Bool := false
  deriving DecidableEq, Repr

/-- Device time (R51, R683): 64 bits, and the part below 2^-32 s in units of 2^-32 s / 390625. -/
structure Clock where
  t : BitVec 64 := 0
  frac : Nat := 0
  /-- slew still to apply, in units of 2^-32 s / 390625 (R445) -/
  slew : Int := 0
  /-- after a power-on reset: device time is set from the calendar at a whole RTC second once VALID reads 1 (R614) -/
  porSeed : Bool := false
  /-- the TIME_SEED commands that wait for that second (R615) -/
  seed : List Req := []
  deriving DecidableEq, Repr

/-- The state of the block. -/
structure State where
  /-- commands that are waiting, first in first out -/
  pending : List Instr
  /-- the model's own counter of free values, not the manual's: no statement rests on its value -/
  fresh : Nat
  boot : Boot
  /-- registers by address: every one that software or the block stores as a word (default: its reset value) -/
  regs : Map Word
  /-- recipe SRAM by word address 0 to 0x1FFF (R670) -/
  sram : Map Word
  units : Map UnitSt
  reqs : Map ReqSt
  clock : Clock
  supply : Supply
  -- commits and the log
  draught : List DEntry
  holders : List DHolder
  ledger : Map Word
  commitNo : BitVec 32
  log : Map Word
  logSeq : BitVec 32
  logLost : BitVec 32
  -- rails
  rails : Map Rail
  ldos : Map Ldo
  sups : Map Sup
  /-- set by a detection's cold stop, for the rest of its timebase cycle -/
  snap : Option StopSnap
  recsDue : List (List Word)
  store : Map Word
  storeSeq : Word
  -- sequencer and stop lines
  seq : SeqSt
  seqTab : Map Word
  stopN : Line
  errN : Line
  -- load command ports
  lcp : Map LcpPort
  slots : Map LcpSlot
  -- fault collector
  flvl : Map (BitVec 3)
  fsrc : Map FSrc
  unack : BitVec 10
  errnHold : BitVec 10
  occs : List Occ
  -- engines and the router
  engs : Map Eng
  cache : List CLine
  irq : Irq
  extLvl : Byte
  -- measurement and buses
  mea : MeaSt
  ring : Ring
  floor : Floor
  chg : Chg
  sphMode : Word
  sphAddr4 : Bool
  /-- the read mode that the last command of the SPI host found in force (R538) -/
  sphUse : Word
  /-- the last line fill or direct transfer that the SPI host began -/
  sphCmd : Option SphCmd
  spt : Spt
  i2ca : I2c
  i2cb : I2c
  uart : Uart
  timers : Map Timer
  gpioIn : Byte
  rtc : Rtc
  otp : Otp
  jtag : Jtag
  deriving DecidableEq, Repr

/-- OTP as shipped: blank but for the FACTORY lock bit, which every shipped part has set, in both copies (R617);
the trims and signatures of a part are its own (log entry 3). -/
def Otp.shipped : Otp :=
  { lowA := [(0xFF, 1)], highA := [(0xFF, 1)], lowB := [(0xFF, 1)], highB := [(0xFF, 1)] }

/-- The block with a power-on reset in force, before POR_RELEASE: every STATE word 0x0000 (R25), device time 0 (R591),
every register at its reset value, no command waiting. What no rule gives (the first contents of the log, the record
store, OTP and the RTC) is named in log entry 3. -/
def State.reset : State where
  pending := []
  fresh := 0
  boot := {}
  regs := []
  sram := []
  units := []
  reqs := []
  clock := {}
  supply := {}
  draught := []
  holders := []
  ledger := []
  commitNo := 0
  log := []
  logSeq := 0
  logLost := 0
  rails := []
  ldos := []
  sups := []
  snap := none
  recsDue := []
  store := []
  storeSeq := 0
  seq := {}
  seqTab := []
  stopN := {}
  errN := {}
  lcp := []
  slots := []
  flvl := []
  fsrc := []
  unack := 0
  errnHold := 0
  occs := []
  engs := []
  cache := []
  irq := {}
  extLvl := 0
  mea := {}
  ring := {}
  floor := {}
  chg := {}
  sphMode := 0x0003
  sphAddr4 := false
  sphUse := 0x0003
  sphCmd := none
  spt := {}
  i2ca := { live := [0x0601, 0x003C, 0x0082, 0x1E0A, 0x1919] }
  i2cb := {}
  uart := {}
  timers := []
  gpioIn := 0
  rtc := {}
  otp := Otp.shipped
  jtag := {}

end Sys2Proof.Machine
end

