-- ==== Sys2Proof/Machine/Ops.lean ====
section
/-! DEFINITION. The named operations over State: sparse maps, the parts of State by index, device time, checksums,
transitions of a unit, and the cellar log writer. -/

namespace Sys2Proof

/-- The index of a requester: its code in the ledger (W2 [7:4]). -/
def Req.idx : Req → Nat
  | .spt => 0
  | .i2ca => 1
  | .uart => 2
  | .ring => 3
  | .floor => 4
  | .loader => 5
  | .engine n => 8 + n.val

/-- The index of the requester as an engine. -/
def Req.eng : Req → Option Nat
  | .engine n => some n.val
  | _ => none

/-- Every requester but an engine is on the management path (R100; 01_architecture.md, "Management path and data
path"). -/
def Req.isMgmt (r : Req) : Bool := r.eng.isNone

/-- A requester that is a host interface or a remote path: not an engine and not the loader. -/
def Req.isHost : Req → Bool
  | .engine _ => false
  | .loader => false
  | _ => true

/-- The unit of the interface that a requester uses, where it is one (R242). -/
def Req.unit : Req → Option Nat
  | .spt => some 0x057
  | .i2ca => some 0x058
  | .uart => some 0x05A
  | .engine n => some (0x038 + n.val)
  | _ => none

def Req.src (r : Req) : BitVec 4 := if r.isMgmt then 0 else 2

end Sys2Proof

namespace Sys2Proof.Machine

open Sys2Proof

-- sparse maps in canonical form

/-- The value of key `k`, the default where it is not listed. -/
def mget {α : Type} (d : Nat → α) : Map α → Nat → α
  | [], k => d k
  | (a, x) :: m, k => if k = a then x else mget d m k

/-- The pair of key `k` and value `v` in its place before the first greater key. -/
def mput {α : Type} (k : Nat) (v : α) : Map α → Map α
  | [] => [(k, v)]
  | (a, x) :: m => if k < a then (k, v) :: (a, x) :: m else (a, x) :: mput k v m

/-- `m` with key `k` at `v`: keys stay rising, and no default value is listed. -/
def mset {α : Type} [DecidableEq α] (d : Nat → α) (m : Map α) (k : Nat) (v : α) : Map α :=
  if v = d k then m.filter (fun p => p.1 != k) else mput k v (m.filter fun p => p.1 != k)

/-- Keys strictly rise above `lo` and no value is the default. -/
def Map.wfFrom {α : Type} [DecidableEq α] (d : Nat → α) : Nat → Map α → Bool
  | _, [] => true
  | lo, (a, x) :: m => decide (lo ≤ a) && decide (x ≠ d a) && Map.wfFrom d (a + 1) m

/-- The canonical form of a sparse map. -/
def Map.wf {α : Type} [DecidableEq α] (d : Nat → α) (m : Map α) : Bool := Map.wfFrom d 0 m

-- words and bits

/-- Bits [hi:lo] of a word, as a number. -/
def field (w : Word) (hi lo : Nat) : Nat := (w.toNat >>> lo) % 2 ^ (hi + 1 - lo)

/-- Bit i of a word. -/
def bit (w : Word) (i : Nat) : Bool := w.toNat.testBit i

/-- A word from a number, modulo 2^16. -/
def wd (n : Nat) : Word := BitVec.ofNat 16 n

/-- 1 or 0. -/
def b2n (b : Bool) : Nat := if b then 1 else 0

/-- A flag as a word with bit i. -/
def flag (b : Bool) (i : Nat) : Nat := if b then 2 ^ i else 0

/-- A signed 16-bit value. -/
def sgn (w : Word) : Int := w.toInt

/-- n + 1, no higher than `top`. -/
def satInc (n top : Nat) : Nat := if n < top then n + 1 else n

/-- The four words of a 64-bit time, low word first. -/
def timeWords (t : BitVec 64) : List Word :=
  [t.setWidth 16, (t >>> 16).setWidth 16, (t >>> 32).setWidth 16, (t >>> 48).setWidth 16]

/-- Low and high byte of each word, low byte first (grist image, 03_start_up_and_grist.md, "Record format"). -/
def wordBytes : List Word → List Byte
  | [] => []
  | w :: ws => BitVec.setWidth 8 w :: BitVec.setWidth 8 (w >>> 8) :: wordBytes ws

-- checksums

/-- One bit step of CRC-16, polynomial 0x1021, not reflected. -/
def crc16bit (c : BitVec 16) (b : Bool) : BitVec 16 :=
  let c' := c <<< 1
  if c.msb != b then c' ^^^ 0x1021#16 else c'

/-- CRC-16 over one byte, most significant bit first. -/
def crc16byte (c : BitVec 16) (b : Byte) : BitVec 16 :=
  [7, 6, 5, 4, 3, 2, 1, 0].foldl (fun c i => crc16bit c (b.toNat.testBit i)) c

/-- CRC-16 of R153 (polynomial 0x1021, initial value 0xFFFF, no reflection, no final XOR) over bytes. -/
def crc16 (bs : List Byte) : BitVec 16 := bs.foldl crc16byte 0xFFFF#16

/-- CRC-16 over words, each word high byte first (R153, R291). -/
def crc16words (ws : List Word) : Word :=
  ws.foldl (fun (c : BitVec 16) (w : Word) => crc16byte (crc16byte c ((w >>> 8).setWidth 8)) (w.setWidth 8)) 0xFFFF#16

/-- One step of the reflected CRC-32 of R106. -/
def crc32bit (c : BitVec 32) (b : Bool) : BitVec 32 :=
  let c' := c >>> 1
  if c.toNat.testBit 0 != b then c' ^^^ 0xEDB88320#32 else c'

/-- The running CRC-32 of R106 after more bytes. -/
def crc32 (c : BitVec 32) (bs : List Byte) : BitVec 32 :=
  bs.foldl (fun c b => [0, 1, 2, 3, 4, 5, 6, 7].foldl (fun c i => crc32bit c (b.toNat.testBit i)) c) c

/-- CRC-8 over bits, most significant first, with the given polynomial and initial value. -/
def crc8bits (poly init : Byte) (bits : List Bool) : Byte :=
  bits.foldl (fun c b => if c.msb != b then (c <<< 1) ^^^ poly else c <<< 1) init

/-- The n low bits of a number, most significant first. -/
def bitsOf (n x : Nat) : List Bool := (List.range n).map fun i => x.testBit (n - 1 - i)

-- the parts of State by index

def dUnit : Nat → UnitSt := fun _ => {}
def dReq : Nat → ReqSt := fun _ => {}
def dZero : Nat → Word := fun _ => 0
def dRail : Nat → Rail := fun _ => {}
def dLdo : Nat → Ldo := fun _ => {}
def dSup : Nat → Sup := fun _ => {}
def dPort : Nat → LcpPort := fun _ => {}
def dSlot : Nat → LcpSlot := fun _ => {}
def dFSrc : Nat → FSrc := fun _ => {}
def dEng : Nat → Eng := fun _ => {}
def dSet : Nat → BitVec 384 := fun _ => 0
def dPres : Nat → Option Nat := fun _ => none
def dOff : Nat → Bool := fun _ => false
def dTimer : Nat → Timer := fun _ => {}
def dLane : Nat → Lane := fun _ => {}
def dTap : Nat → Option Tap := fun _ => none
def dGen9 : Nat → BitVec 9 := fun _ => 0
def dNat : Nat → Nat := fun _ => 0
def dConv : Nat → Conv := fun _ => {}
/-- Cycles since a device was heard: 16 when absent (R430, R491). -/
def dAge : Nat → Nat := fun _ => 16
def dWait : Nat → Option Byte := fun _ => none
def dKept : Nat → Option (Byte × Msg) := fun _ => none
def dHeld : Nat → List HeldCycle := fun _ => []
def dSent : Nat → Option SentCycle := fun _ => none
def dWrote : Nat → List (List Byte) := fun _ => []
def dDue : Nat → Option Nat := fun _ => none
def dLatch : Nat → Option Word := fun _ => none

def State.unit (s : State) (n : Nat) : UnitSt := mget dUnit s.units n
def State.setUnit (s : State) (n : Nat) (u : UnitSt) : State := { s with units := mset dUnit s.units n u }

def State.req (s : State) (r : Req) : ReqSt := mget dReq s.reqs r.idx
def State.setReq (s : State) (r : Req) (q : ReqSt) : State := { s with reqs := mset dReq s.reqs r.idx q }

def State.rail (s : State) (n : Nat) : Rail := mget dRail s.rails n
def State.setRail (s : State) (n : Nat) (x : Rail) : State := { s with rails := mset dRail s.rails n x }
def State.ldo (s : State) (n : Nat) : Ldo := mget dLdo s.ldos n
def State.setLdo (s : State) (n : Nat) (x : Ldo) : State := { s with ldos := mset dLdo s.ldos n x }
def State.sup (s : State) (n : Nat) : Sup := mget dSup s.sups n
def State.setSup (s : State) (n : Nat) (x : Sup) : State := { s with sups := mset dSup s.sups n x }
def State.port (s : State) (n : Nat) : LcpPort := mget dPort s.lcp n
def State.setPort (s : State) (n : Nat) (x : LcpPort) : State := { s with lcp := mset dPort s.lcp n x }
/-- Slot m of port p has key 4p + m. -/
def State.slot (s : State) (k : Nat) : LcpSlot := mget dSlot s.slots k
def State.setSlot (s : State) (k : Nat) (x : LcpSlot) : State := { s with slots := mset dSlot s.slots k x }
/-- Source `src` of class `cls` has key 256 cls + src. -/
def State.flt (s : State) (k : Nat) : FSrc := mget dFSrc s.fsrc k
def State.setFlt (s : State) (k : Nat) (x : FSrc) : State := { s with fsrc := mset dFSrc s.fsrc k x }
def State.eng (s : State) (n : Nat) : Eng := mget dEng s.engs n
def State.setEng (s : State) (n : Nat) (x : Eng) : State := { s with engs := mset dEng s.engs n x }
def State.timer (s : State) (n : Nat) : Timer := mget dTimer s.timers n
def State.setTimer (s : State) (n : Nat) (x : Timer) : State := { s with timers := mset dTimer s.timers n x }
def State.lane (s : State) (n : Nat) : Lane := mget dLane s.ring.lanes n
def State.setLane (s : State) (n : Nat) (x : Lane) : State :=
  { s with ring := { s.ring with lanes := mset dLane s.ring.lanes n x } }
def State.tap (s : State) (i : Nat) : Option Tap := mget dTap s.mea.taps i
def State.setTap (s : State) (i : Nat) (x : Option Tap) : State :=
  { s with mea := { s.mea with taps := mset dTap s.mea.taps i x } }

/-- A word of recipe SRAM (0x0000 to 0x1FFF); it reads 0x0000 where nothing has been written (R670). -/
def State.sramAt (s : State) (a : Nat) : Word := mget dZero s.sram a
def State.setSram (s : State) (a : Nat) (w : Word) : State := { s with sram := mset dZero s.sram a w }

/-- The end of a load port's transaction: the sample history is all ones again (R203), and the port drives nothing. -/
def LcpPort.ended (x : LcpPort) : LcpPort := { x with active := false, hist := 0xFF, part := [], drives := false }

/-- A free value was taken: the next one is another. -/
def State.tick (s : State) : State := { s with fresh := s.fresh + 1 }

/-- The floor port without slot timing: what it keeps when it loses it, is disabled or is reset (R242, R480, R487); the
requests that wait end by their time limit. -/
def Floor.untimed (f : Floor) : Floor :=
  { tx := f.tx, rx := f.rx, cntMute := f.cntMute, mute := f.mute, dup := f.dup, pend := f.pend, reqNo := f.reqNo,
    kept := f.kept, out := f.out }

-- unit numbers (01_architecture.md, "Unit numbers")

def uLd (n : Nat) : Nat := 0x010 + n
def uSv (n : Nat) : Nat := 0x018 + n
def uEng (n : Nat) : Nat := 0x038 + n
def uLcp (n : Nat) : Nat := 0x03C + n
def uTmr (n : Nat) : Nat := 0x040 + n
def uLane (n : Nat) : Nat := 0x048 + n
def uFloor : Nat := 0x04C
def uChg : Nat := 0x04D
def uMc (n : Nat) : Nat := 0x04E + n
def uSph : Nat := 0x056
def uSpt : Nat := 0x057
def uI2ca : Nat := 0x058
def uI2cb : Nat := 0x059
def uUart : Nat := 0x05A
def uTap (i : Nat) : Nat := 0x080 + i

/-- A unit number that names a unit (R684). -/
def unitNamed (n : Nat) : Bool := n < 0x05B || (0x080 ≤ n && n < 0x0FF)

/-- The units that can be fenced (R28): every unit but rails, LDOs and supervisors. -/
def canFence (n : Nat) : Bool := 0x038 ≤ n && unitNamed n

def Owner.code : Owner → Nat
  | .management => 0
  | .port => 1
  | .engine => 2
  | .sequencer => 3

def ownerOf : Nat → Owner
  | 0 => .management
  | 1 => .port
  | 2 => .engine
  | _ => .sequencer

/-- The STATE word (R22). -/
def UnitSt.word (u : UnitSt) : Word :=
  wd (u.code.toNat + 16 * u.owner.code + flag u.fenced 6 + flag u.busy 7 + 256 * u.gen.toNat)

/-- The sources of a transition that UNIT_INSPECT shows (01_architecture.md, "Unit operations"). -/
abbrev srcMgmt : BitVec 4 := 0
abbrev srcPort : BitVec 4 := 1
abbrev srcEngine : BitVec 4 := 2
abbrev srcSeq : BitVec 4 := 3
abbrev srcFault : BitVec 4 := 4
abbrev srcStop : BitVec 4 := 5

/-- One accepted transition of unit n: GEN rises by one, modulo 256 (R23), and `f` gives the other fields. -/
def State.accept (s : State) (n : Nat) (src : BitVec 4) (f : UnitSt → UnitSt) : State :=
  let u := s.unit n
  s.setUnit n { f u with gen := u.gen + 1, src := src }

/-- A state change that is no transition: GEN stays. -/
def State.setCode (s : State) (n : Nat) (c : BitVec 4) : State := s.setUnit n { s.unit n with code := c }

/-- The end of the transition in flight: the unit reaches state `c` and BUSY clears. -/
def State.arrive (s : State) (n : Nat) (c : BitVec 4) : State :=
  s.setUnit n { s.unit n with code := c, busy := false }

end Sys2Proof.Machine
end

