-- ==== Sys2Proof/Machine/RingCode.lean ====
section
/-! DEFINITION. How a ring cycle is coded (12_device_ring.md, R422 to R429, R452, R461): the RS(544,514) code, the order of
bits, and the layouts of the beacon, the management slots and the telemetry containers. What the manual takes from IEEE
802.3 clause 91 by name alone (field polynomial, generator polynomial, bit order) is PRESUMED as that clause has it, log
entry 9. -/

namespace Sys2Proof.Machine

open Sys2Proof

-- GF(2^10), by x^10 + x^3 + 1

/-- Times the primitive element. -/
def gfDouble (a : Sym) : Sym := if a.msb then (a <<< 1) ^^^ 0x009#10 else a <<< 1

/-- The product, from the highest bit of the second factor down. -/
def gfMul (a b : Sym) : Sym :=
  [9, 8, 7, 6, 5, 4, 3, 2, 1, 0].foldl (fun r i => if b.getLsbD i then gfDouble r ^^^ a else gfDouble r) 0

/-- The n-th power, n < 1024. -/
def gfPow (a : Sym) (n : Nat) : Sym :=
  [9, 8, 7, 6, 5, 4, 3, 2, 1, 0].foldl (fun r i => let q := gfMul r r; if n.testBit i then gfMul q a else q) 1

def gfInv (a : Sym) : Sym := gfPow a 1022

/-- The primitive element to the power n. -/
def gfAlpha (n : Nat) : Sym := gfPow 2 (n % 1023)

-- polynomials, lowest coefficient first

def polyAdd : List Sym → List Sym → List Sym
  | [], q => q
  | p, [] => p
  | a :: p, b :: q => (a ^^^ b) :: polyAdd p q

def polyScale (c : Sym) (p : List Sym) : List Sym := p.map (gfMul c)

def polyMul (p q : List Sym) : List Sym := p.foldr (fun a r => polyAdd (polyScale a q) (0 :: r)) []

/-- The value at x. -/
def polyEval (p : List Sym) (x : Sym) : Sym := p.foldr (fun a r => gfMul r x ^^^ a) 0

/-- The formal derivative: the odd coefficients, one place lower. -/
def polyDeriv (p : List Sym) : List Sym := (List.range (p.length - 1)).map fun i => if i % 2 = 0 then p.getD (i + 1) 0 else 0

-- the RS(544,514) code; a codeword lists its symbols in the order sent, the highest coefficient first

/-- Generator polynomial: the product of x − α^j for j from 0 to 29. -/
def rsGen : List Sym := (List.range 30).foldl (fun g j => polyMul g [gfAlpha j, 1]) [1]

/-- The 30 parity symbols of 514 message symbols: what the message times x^30 leaves modulo the generator. -/
def rsParity (msg : List Sym) : List Sym :=
  let g := (rsGen.take 30).reverse
  msg.foldl (fun r m =>
    let f := r.headD 0 ^^^ m
    List.zipWith (fun a b => a ^^^ gfMul f b) (r.drop 1 ++ [0]) g) (List.replicate 30 0)

def rsEncode (msg : List Sym) : List Sym := msg ++ rsParity msg

/-- The syndromes of a received word: its values at α^0 to α^29. -/
def rsSyndromes (r : List Sym) : List Sym :=
  (List.range 30).map fun j => let x := gfAlpha j; r.foldl (fun a c => gfMul a x ^^^ c) 0

/-- What Berlekamp and Massey's algorithm holds: the locator, its last predecessor of another length, the length, the shift
since then and the discrepancy met then. -/
structure BmState where
  c : List Sym
  b : List Sym
  len : Nat
  m : Nat
  d : Sym

/-- One step, at syndrome n. -/
def bmStep (syn : List Sym) (x : BmState) (n : Nat) : BmState :=
  let d := (List.range x.len).foldl (fun a i => a ^^^ gfMul (x.c.getD (i + 1) 0) (syn.getD (n - (i + 1)) 0)) (syn.getD n 0)
  if d = 0 then { x with m := x.m + 1 }
  else
    let c := polyAdd x.c (List.replicate x.m 0 ++ polyScale (gfMul d (gfInv x.d)) x.b)
    if 2 * x.len ≤ n then { c := c, b := x.c, len := n + 1 - x.len, m := 1, d := d } else { x with c := c, m := x.m + 1 }

/-- The errors of a received word, as places from the last symbol and values (Chien's search and Forney's formula). -/
def rsErrors (syn : List Sym) : List (Nat × Sym) :=
  let x := (List.range 30).foldl (bmStep syn) { c := [1], b := [1], len := 0, m := 1, d := 1 }
  let om := (polyMul syn x.c).take 30
  let dv := polyDeriv x.c
  (List.range 544).filterMap fun i =>
    let inv := gfAlpha (1023 - i)
    if polyEval x.c inv = 0 then some (i, gfMul (gfAlpha i) (gfMul (polyEval om inv) (gfInv (polyEval dv inv)))) else none

/-- A received word of 544 symbols decoded (R423): the codeword within 15 symbols of it, with the number of symbols corrected;
none where there is no such codeword. -/
def rsDecode (r : List Sym) : Option (List Sym × Nat) :=
  let syn := rsSyndromes r
  if syn.all (· == 0) then some (r, 0)
  else
    let es := rsErrors syn
    let c := r.zipIdx.map fun p => match es.find? fun e => e.1 + p.2 == 543 with
      | some e => p.1 ^^^ e.2
      | none => p.1
    if es.length ≤ 15 ∧ (rsSyndromes c).all (· == 0) then some (c, es.length) else none

-- bits and bytes

/-- A list in pieces of k. -/
def pieces {α : Type} (k : Nat) : Nat → List α → List (List α)
  | 0, _ => []
  | n + 1, l => l.take k :: pieces k n (l.drop k)

/-- Bits of a number, lowest first. -/
def lowBits (n x : Nat) : List Bool := (List.range n).map x.testBit

/-- The number that bits spell, lowest first. -/
def ofBits (bs : List Bool) : Nat := bs.foldr (fun b n => 2 * n + b2n b) 0

/-- n bytes of a number, the lowest first (little-endian, R427). -/
def leBytes (n x : Nat) : List Byte := (List.range n).map fun i => BitVec.ofNat 8 (x >>> (8 * i))

/-- The number that bytes spell, the lowest first. -/
def leNat (bs : List Byte) : Nat := bs.foldr (fun b n => 256 * n + b.toNat) 0

/-- Bytes a to a + n − 1 of a field, as a number. -/
def leAt (bs : List Byte) (a n : Nat) : Nat := leNat ((bs.drop a).take n)

/-- Bytes with their CRC-16 after them, low byte first (R427, R153). -/
def withCrc (bs : List Byte) : List Byte := bs ++ leBytes 2 (crc16 bs).toNat

/-- The last two bytes are the CRC-16 of the others. -/
def crcGood (bs : List Byte) : Bool := bs == withCrc (bs.take (bs.length - 2))

/-- Every byte of a field, where none of them was discarded. -/
def allBytes (bs : List (Option Byte)) : Option (List Byte) := bs.mapM id

-- the payload of 12 850 bytes (R427)

/-- The payload bytes of 20 received codewords; the bytes of a codeword that could not be corrected are discarded (R423). -/
def payloadBytes (cws : List (Option (List Sym))) : List (Option Byte) :=
  let bits := cws.flatMap fun c => match c with
    | some l => (l.take 514).flatMap fun x => (lowBits 10 x.toNat).map some
    | none => List.replicate 5140 none
  (pieces 8 12850 bits).map fun b => (b.mapM id).map fun l => BitVec.ofNat 8 (ofBits l)

/-- The 20 codewords that carry 12 850 bytes (R425). -/
def payloadCodewords (bs : List Byte) : List (List Sym) :=
  let bits := bs.flatMap fun b => lowBits 8 b.toNat
  (pieces 514 20 ((pieces 10 10280 bits).map fun l => BitVec.ofNat 10 (ofBits l))).map rsEncode

/-- The marker: the 64-bit word twenty times, bit 63 first (R425). -/
def markerBits : List Bool := (List.replicate 20 (bitsOf 64 0xC3A596F00F695A3C)).flatten

/-- The pad lengths that a forwarding device may send; the nominal one is the middle one (R425, R426). -/
def padBits (k : Fin 3) : Nat :=
  match k with
  | 0 => 1792
  | 1 => 1920
  | 2 => 2048

/-- The bits of a cycle in the order sent (R425): marker, codewords, and the pad's idle symbols, whose content the manual
does not give: they are an argument. -/
def cycleBits (bs : List Byte) (pad : Fin 3) (idle : Nat → Bool) : List Bool :=
  markerBits ++ (payloadCodewords bs).flatMap (fun c => c.flatMap fun x => lowBits 10 x.toNat) ++
    (List.range (padBits pad)).map idle

/-- The PAM4 levels 0 to 3 of a bit stream: Gray mapping without precoding, the first bit of a pair the higher (R422; the
mapping 00, 01, 11, 10 is PRESUMED, log entry 9). -/
def pam4 : List Bool → List (Fin 4)
  | a :: b :: l => (match a, b with
    | false, false => 0
    | false, true => 1
    | true, true => 2
    | true, false => 3) :: pam4 l
  | _ => []

-- beacon (R428)

/-- The 64 bytes of a beacon. -/
def beaconBytes (b : Beacon) : List Byte :=
  let f1 := b.pri.toNat + flag b.mvalid 2 + flag b.wrap 3 + flag b.tvalid 4 + flag b.losrep 5
  withCrc ([b.master, BitVec.ofNat 8 f1, b.hops, b.sender] ++ leBytes 4 b.cycle.toNat ++ leBytes 8 b.tTx.toNat ++
    leBytes 8 b.tRx.toNat ++ leBytes 4 b.cycRx.toNat ++ [b.slice.setWidth 8, 0] ++ leBytes 2 b.release.toNat ++ [b.fecrep] ++
    List.replicate 29 0)

/-- A beacon from its bytes, where the CRC is right. -/
def beaconOf (bs : List Byte) : Option Beacon :=
  if !crcGood bs then none
  else
    let f := leAt bs 1 1
    some { master := bs.getD 0 0, pri := BitVec.ofNat 2 f, mvalid := f.testBit 2, wrap := f.testBit 3, tvalid := f.testBit 4,
           losrep := f.testBit 5, hops := bs.getD 2 0, sender := bs.getD 3 0, cycle := BitVec.ofNat 32 (leAt bs 4 4),
           tTx := BitVec.ofNat 64 (leAt bs 8 8), tRx := BitVec.ofNat 64 (leAt bs 16 8),
           cycRx := BitVec.ofNat 32 (leAt bs 24 4), slice := BitVec.ofNat 4 (leAt bs 28 1),
           release := BitVec.ofNat 16 (leAt bs 30 2), fecrep := bs.getD 32 0 }

-- telemetry container (R429)

/-- The 40 bytes of a container; without a fragment its payload is zeros. -/
def containerBytes (c : Container) : List Byte :=
  let f2 := (b2n c.stream) + 16 * c.frag.val + flag c.present 7
  withCrc ([c.src, c.dst, BitVec.ofNat 8 f2, c.seq] ++ (List.range 16).flatMap (fun i => leBytes 2 (c.payload.getD i 0).toNat) ++
    [c.barrier, BitVec.ofNat 8 (b2n c.waiting)])

/-- A container from its bytes, where the CRC is right. A TYPE that the table does not list is read as empty (DESIGN CHOICE,
log entry 9). -/
def containerOf (bs : List Byte) : Option Container :=
  if !crcGood bs then none
  else
    let f := leAt bs 2 1
    let stream := f % 16 == 1
    some { src := bs.getD 0 0, dst := bs.getD 1 0, stream := stream, frag := Fin.ofNat 4 (f / 16), present := f.testBit 7,
           seq := bs.getD 3 0,
           payload := if stream then (List.range 16).map fun i => wd (leAt bs (4 + 2 * i) 2) else [],
           barrier := bs.getD 36 0, waiting := (leAt bs 37 1).testBit 0 }

/-- Container k where none has been received from its device: PRESENT 0 (DESIGN CHOICE, log entry 9: R429 gives only what
device k writes). -/
def absentContainer (k : Nat) : List Byte := withCrc (BitVec.ofNat 8 k :: List.replicate 37 0)

-- management slot (R452)

/-- The 46 bytes of a management slot with a message. -/
def slotBytes (m : Msg) : List Byte :=
  withCrc ([m.kind, m.dst, m.src, m.tag, m.count, 0] ++ leBytes 2 m.code.toNat ++
    (List.range 6).flatMap (fun i => leBytes 2 (m.data.getD i 0).toNat) ++ List.replicate 24 0)

/-- An empty slot: all zeros, except for its CRC. -/
def emptySlot : List Byte := withCrc (List.replicate 44 0)

/-- A message kind of the slot table; any other is treated as empty. -/
def slotKind (k : Byte) : Bool := (1 ≤ k.toNat && k.toNat ≤ 3) || (9 ≤ k.toNat && k.toNat ≤ 11)

/-- The message of a slot with a right CRC, none where it is empty. -/
def slotMsg (bs : List Byte) : Option Msg :=
  if !slotKind (bs.getD 0 0) then none
  else some { kind := bs.getD 0 0, dst := bs.getD 1 0, src := bs.getD 2 0, tag := bs.getD 3 0, count := bs.getD 4 0,
              code := wd (leAt bs 6 2), data := (List.range 6).map fun i => wd (leAt bs (8 + 2 * i) 2) }

-- emergency container (R461)

/-- Sixteen bytes of alarm, and of none. -/
def alarmBytes : List Byte := List.replicate 16 0xE5
def noAlarm : List Byte := List.replicate 16 0

-- a whole cycle (R427)

/-- The payload bytes of a cycle that is sent: slots and containers are left out on a muted lane (R435), where their bytes
are 0x00 (DESIGN CHOICE, log entry 9). -/
def cyclePayload (x : SentCycle) : List Byte :=
  beaconBytes x.beacon ++ x.emergency ++ (if x.muted then List.replicate 12770 0 else x.slots.flatten ++ x.conts.flatten)

/-- What a receiver reads in a cycle: each part none where a codeword that carries some of it was discarded. -/
structure RxParts where
  beacon : Option (List Byte)
  emergency : Option (List Byte)
  slots : List (Option (List Byte))
  conts : List (Option (List Byte))
  uncorrectable : Nat
  corrected : Nat

/-- A received cycle taken apart (R423, R427). -/
def rxParts (cws : List (List Sym)) : RxParts :=
  let ds := cws.map rsDecode
  let bs := payloadBytes (ds.map fun d => d.map (·.1))
  { beacon := allBytes (bs.take 64), emergency := allBytes ((bs.drop 64).take 16),
    slots := (pieces 46 55 (bs.drop 80)).map allBytes, conts := (pieces 40 256 (bs.drop 2610)).map allBytes,
    uncorrectable := (ds.filter fun d => d.isNone).length,
    corrected := (ds.filter fun d => match d with
      | some p => 0 < p.2
      | none => false).length }

/-- A part with a CRC that was received and is wrong (R433). -/
def crcBad (p : Option (List Byte)) : Bool :=
  match p with
  | some bs => !crcGood bs
  | none => false

end Sys2Proof.Machine
end

