-- ==== Sys2Proof/Machine/FloorCode.lean ====
section
/-! DEFINITION. How frames of the floor bus are laid out and sent, and when a received one is good (13_floor_bus.md, R472,
R473, R488). -/

namespace Sys2Proof.Machine

open Sys2Proof

/-- Bytes with their CRC-16 after them, high byte first (R472). -/
def withCrcHigh (bs : List Byte) : List Byte := bs ++ (leBytes 2 (crc16 bs).toNat).reverse

/-- The bytes of a received frame, where every stop bit was 1, no gap inside was longer than 1 bit time (8 samples), and the
CRC is right (R473). -/
def floorBytes (cs : List FloorChar) : Option (List Byte) :=
  let bs := cs.map (·.data)
  if cs.all (·.stop) && ((cs.drop 1).all fun c => c.gap ≤ 8) && 2 ≤ bs.length && bs == withCrcHigh (bs.take (bs.length - 2)) then
    some bs
  else none

/-- The 40 bytes of a beacon. -/
def floorBeaconBytes (b : FloorBeacon) : List Byte :=
  withCrcHigh ([b.src, BitVec.ofNat 8 (16 * b.pri.toNat + flag b.ringt 6)] ++ leBytes 4 b.cycle.toNat ++
    leBytes 32 b.release.toNat)

/-- A valid beacon: TYPE 0 and 40 bytes. -/
def floorBeaconOf (cs : List FloorChar) : Option FloorBeacon :=
  match floorBytes cs with
  | some bs =>
    let f := leAt bs 1 1
    if bs.length = 40 ∧ f % 16 = 0 then
      some { src := bs.getD 0 0, pri := BitVec.ofNat 2 (f / 16), ringt := f.testBit 6, cycle := BitVec.ofNat 32 (leAt bs 2 4),
             release := BitVec.ofNat 256 (leAt bs 6 32) }
    else none
  | none => none

/-- The 20 bytes of a management section. -/
def mgmtBytes (m : Msg) : List Byte :=
  [m.dst, m.tag, m.kind, m.count] ++ leBytes 2 m.code.toNat ++
    (List.range 7).flatMap fun i => leBytes 2 (m.data.getD i 0).toNat

/-- A management section from its bytes; the frame's SRC is the message's. -/
def mgmtOf (src : Byte) (bs : List Byte) : Msg :=
  { dst := bs.getD 0 0, tag := bs.getD 1 0, kind := bs.getD 2 0, count := bs.getD 3 0, src := src, code := wd (leAt bs 4 2),
    data := (List.range 7).map fun i => wd (leAt bs (6 + 2 * i) 2) }

/-- The 7 or 27 bytes of a device frame. -/
def floorFrameBytes (f : FloorFrame) : List Byte :=
  let f1 := (if f.claim then 2 else 1) + flag f.waiting 4 + flag f.alarm 5 + flag f.mgmt.isSome 6 + flag f.tvalid 7
  withCrcHigh ([f.src, BitVec.ofNat 8 f1, f.bar, BitVec.ofNat 8 (f.pri.toNat + 4 * f.repk.toNat), f.rep] ++
    match f.mgmt with
    | some m => mgmtBytes m
    | none => [])

/-- A device frame whose length is that of its TYPE and MGMT (R473); a TYPE that the table does not list has no length. -/
def floorFrameOf (cs : List FloorChar) : Option FloorFrame :=
  match floorBytes cs with
  | some bs =>
    let f := leAt bs 1 1
    let g := leAt bs 3 1
    let mgmt := f.testBit 6
    if (f % 16 = 1 ∨ f % 16 = 2) ∧ bs.length = (if mgmt then 27 else 7) then
      some { src := bs.getD 0 0, claim := f % 16 == 2, waiting := f.testBit 4, alarm := f.testBit 5, tvalid := f.testBit 7,
             bar := bs.getD 2 0, pri := BitVec.ofNat 2 g, repk := BitVec.ofNat 2 (g / 4), rep := bs.getD 4 0,
             mgmt := if mgmt then some (mgmtOf (bs.getD 0 0) (bs.drop 5)) else none }
    else none
  | none => none

/-- FLR_DE and FLR_TXD while something is sent, with the time in samples of 12.5 ns (8 to a bit; "How the floor bus works",
R467, R488): bytes with a start bit of 0, eight bits from the lowest and a stop bit of 1; or 8.0 µs of low. After it FLR_DE is
low. -/
def floorWave (x : FloorOut) : List (Bool × Bool × Nat) :=
  match x with
  | .frame bs => bs.flatMap fun b => ([false] ++ lowBits 8 b.toNat ++ [true]).map fun l => (true, l, 8)
  | .stop => [(true, false, 640)]

/-- The start of device slot s after the cycle start, in units of 12.5 ns (R468). -/
def slotStart80 (s : Nat) : Nat := 80 * 240 + 80 * 1220 * (s / 32) + 3000 * (s % 32)

/-- The nominal start of the frame of slot s, and of a stop frame in window g (R469). -/
def frameNominal (s : Nat) : Nat := slotStart80 s + 320
def stopNominal (g : Nat) : Nat := 80 * 1440 + 80 * 1220 * g + 320

end Sys2Proof.Machine
end

