-- ==== Sys2Proof/Machine/Scan.lean ====
section
/-! DEFINITION. The test access port's instructions and the order of the boundary register (19_proof.md, R641, R642; the ball map
of 02_balls_and_supplies.md, R58). -/

namespace Sys2Proof.Machine

open Sys2Proof

/-- What the instruction register captures before it shifts (R641). -/
def irCaptured : BitVec 4 := 0x1

/-- The instruction that a code in the instruction register selects (R641): every code but four is BYPASS. -/
def irSelect (code : BitVec 4) : BitVec 4 := if code == 0 || code == 1 || code == 2 || code == 8 then code else 0xF

/-- The digital balls of the ball map (R58). -/
inductive Ball where
  | swPwm (n : Nat)
  | swEn (n : Nat)
  | ldPg (n : Nat)
  | extIrq (n : Nat)
  | gpio (n : Nat)
  | ref10m
  | ppsIn
  | ppsOut
  | stopN
  | errN
  | resetN
  | hostIrqA
  | hostIrqB
  | devid (n : Nat)
  | testmode
  | lcpClk (p : Nat)
  | lcpDat (p : Nat)
  | lcpAlert (p : Nat)
  | flrTxd
  | flrRxd
  | flrDe
  | flrRe
  | uartTxd
  | uartRxd
  | i2caScl
  | i2caSda
  | i2cbScl
  | i2cbSda
  | i2cbRst
  | sptSck
  | sptCs
  | sptSdi
  | sptSdo
  | sphSck
  | sphCs
  | sphIo (l : Nat)
  | tck
  | tms
  | tdi
  | tdo
  | trst
  | swFlt (n : Nat)
  deriving DecidableEq, Repr

/-- How a boundary cell serves its ball. -/
inductive CellKind where
  /-- a data cell of a ball that the device can drive -/
  | data
  /-- a data cell of an input -/
  | input
  /-- a data cell that only observes: of SWnn_PWM and SWnn_EN, and of TDO, which the shift itself drives -/
  | observe
  /-- the control cell of a bidirectional or open-drain ball -/
  | control
  deriving DecidableEq, Repr

/-- A boundary cell: its ball, and how it serves it. -/
abbrev Cell := Ball × CellKind

/-- The device drives the ball low or leaves it released, and never drives it high (R58; R74 of STOP_N and ERR_N). That the type
'I/O' of I2CB_SDA stands for its neighbour's 'Open-drain I/O' is DEDUCED, log entry 46. -/
def Ball.openDrain : Ball → Bool
  | .ldPg _ | .stopN | .errN | .hostIrqA | .hostIrqB | .lcpAlert _ | .i2caScl | .i2caSda | .i2cbScl | .i2cbSda => true
  | _ => false

/-- A ball with one cell. -/
def one (k : CellKind) (b : Ball) : List Cell := [(b, k)]

/-- A bidirectional or open-drain ball: a data cell and directly after it a control cell. -/
def two (b : Ball) : List Cell := [(b, .data), (b, .control)]

/-- The first n balls of a row of like balls. -/
def ballRun (n : Nat) (cells : Nat → List Cell) : List Cell := (List.range n).flatMap cells

/-- The boundary register from TDI: the digital balls of the ball map by row and then by column (R58, R642). Where the map's type
has no word 'digital', the digital balls are those with a logic level: the ring's, charger's, REFCLK's and crystal's have no cell
(DESIGN CHOICE, log entry 46). -/
def boundary : List Cell :=
  ballRun 16 (fun n => one .observe (.swPwm n)) ++ ballRun 16 (fun n => one .observe (.swEn n)) ++
  ballRun 8 (fun n => two (.ldPg n)) ++ ballRun 8 (fun n => one .input (.extIrq n)) ++ ballRun 8 (fun n => two (.gpio n)) ++
  one .input .ref10m ++ one .input .ppsIn ++ one .data .ppsOut ++ two .stopN ++ two .errN ++ one .input .resetN ++
  two .hostIrqA ++ two .hostIrqB ++ ballRun 8 (fun n => one .input (.devid n)) ++ one .input .testmode ++
  ballRun 4 (fun p => one .input (.lcpClk p) ++ two (.lcpDat p) ++ two (.lcpAlert p)) ++
  one .data .flrTxd ++ one .input .flrRxd ++ one .data .flrDe ++ one .data .flrRe ++
  one .data .uartTxd ++ one .input .uartRxd ++ two .i2caScl ++ two .i2caSda ++
  two .i2cbScl ++ two .i2cbSda ++ one .data .i2cbRst ++
  one .input .sptSck ++ one .input .sptCs ++ one .input .sptSdi ++ one .data .sptSdo ++
  one .data .sphSck ++ one .data .sphCs ++ ballRun 4 (fun l => two (.sphIo l)) ++
  one .input .tck ++ one .input .tms ++ one .input .tdi ++ one .observe .tdo ++ one .input .trst ++
  ballRun 16 (fun n => one .input (.swFlt n))

/-- The boundary register has one bit for each cell (R642). -/
def scanFits (cells : List Bool) : Bool := cells.length == boundary.length

end Sys2Proof.Machine
end

