-- ==== Sys2Proof/Machine/Flags.lean ====
section
/-! DEFINITION. What the engine instructions compute: results and flags, every arithmetic edge of R305 to R319
(09_recipe_engines.md). Flags: N bit 0, Z bit 1, C bit 2, V bit 3, S bit 4, D bit 5, I bit 6. -/

namespace Sys2Proof.Machine

open Sys2Proof

/-- The flags word of an engine (R305). -/
abbrev EFlags := BitVec 7

def fN (f : EFlags) : Bool := f.getLsbD 0
def fZ (f : EFlags) : Bool := f.getLsbD 1
def fC (f : EFlags) : Bool := f.getLsbD 2
def fV (f : EFlags) : Bool := f.getLsbD 3
def fS (f : EFlags) : Bool := f.getLsbD 4
def fD (f : EFlags) : Bool := f.getLsbD 5
def fI (f : EFlags) : Bool := f.getLsbD 6

/-- A flags word from its bits. -/
def mkFlags (n z c v s d i : Bool) : EFlags :=
  BitVec.ofNat 7 (flag n 0 + flag z 1 + flag c 2 + flag v 3 + flag s 4 + flag d 5 + flag i 6)

/-- N and Z from a result; C and V as given; S and D are sticky (R306); I stays. -/
def withFlags (f : EFlags) (n z c v s d : Bool) : EFlags := mkFlags n z c v (fS f || s) (fD f || d) (fI f)

/-- N and Z from a word; C and V unchanged (R310). -/
def logicFlags (f : EFlags) (r : Word) : EFlags := withFlags f r.msb (r == 0) (fC f) (fV f) false false

/-- An exact signed result held to 16 bits: 0x7FFF above, 0x8000 below (R314). -/
def saturate (x : Int) : Word := if x > 32767 then 0x7FFF else if x < -32768 then 0x8000 else BitVec.ofInt 16 x

/-- The exact signed result does not fit 16 bits. -/
def ovf (x : Int) : Bool := x > 32767 || x < -32768

/-- Sum, wrapped: N Z C V, C the carry out of bit 15 (R307, R313). -/
def aluAdd (a b : Word) (f : EFlags) : Word × EFlags :=
  let r := a + b
  (r, withFlags f r.msb (r == 0) (a.toNat + b.toNat ≥ 65536) (ovf (a.toInt + b.toInt)) false false)

/-- Difference, wrapped: C is the borrow (R307, R313). -/
def aluSub (a b : Word) (f : EFlags) : Word × EFlags :=
  let r := a - b
  (r, withFlags f r.msb (r == 0) (a.toNat < b.toNat) (ovf (a.toInt - b.toInt)) false false)

/-- Sum, saturated: sets V and S when it saturates (R314). -/
def aluAdds (a b : Word) (f : EFlags) : Word × EFlags :=
  let x := a.toInt + b.toInt
  let r := saturate x
  (r, withFlags f r.msb (r == 0) (a.toNat + b.toNat ≥ 65536) (ovf x) (ovf x) false)

/-- Difference, saturated (R314). -/
def aluSubs (a b : Word) (f : EFlags) : Word × EFlags :=
  let x := a.toInt - b.toInt
  let r := saturate x
  (r, withFlags f r.msb (r == 0) (a.toNat < b.toNat) (ovf x) (ovf x) false)

/-- Bitwise results and MOV: N Z only (R310). -/
def aluLogic (r : Word) (f : EFlags) : Word × EFlags := (r, logicFlags f r)

/-- The amount of a shift is the full word (R317); C is the last bit shifted out for 1 to 16, 0 above. -/
def aluLsl (a s : Word) (f : EFlags) : Word × EFlags :=
  let n := s.toNat
  let r : Word := if n ≥ 16 then 0 else a <<< n
  let c := if n = 0 then fC f else if n ≤ 16 then a.getLsbD (16 - n) else false
  (r, withFlags f r.msb (r == 0) c false false false)

def aluLsr (a s : Word) (f : EFlags) : Word × EFlags :=
  let n := s.toNat
  let r : Word := if n ≥ 16 then 0 else a >>> n
  let c := if n = 0 then fC f else if n ≤ 16 then a.getLsbD (n - 1) else false
  (r, withFlags f r.msb (r == 0) c false false false)

def aluAsr (a s : Word) (f : EFlags) : Word × EFlags :=
  let n := s.toNat
  let r : Word := if n ≥ 16 then (if a.msb then 0xFFFF else 0) else a.sshiftRight n
  let c := if n = 0 then fC f else if n ≤ 16 then a.getLsbD (n - 1) else a.msb
  (r, withFlags f r.msb (r == 0) c false false false)

/-- Rotate right by the amount modulo 16 (R318). -/
def aluRor (a s : Word) (f : EFlags) : Word × EFlags :=
  let n := s.toNat % 16
  let r := a.rotateRight n
  (r, withFlags f r.msb (r == 0) (if n = 0 then fC f else r.msb) false false false)

/-- A 32-bit product as the pair low, high; N is bit 31, Z all 32 bits (R319); C and V clear. -/
def aluPair (p : BitVec 32) (f : EFlags) : Word × Word × EFlags :=
  (p.setWidth 16, (p >>> 16).setWidth 16, withFlags f p.msb (p == 0) false false false false)

def aluMul (a b : Word) (f : EFlags) : Word × Word × EFlags := aluPair (BitVec.ofInt 32 (a.toInt * b.toInt)) f
def aluMulu (a b : Word) (f : EFlags) : Word × Word × EFlags := aluPair (BitVec.ofNat 32 (a.toNat * b.toNat)) f

/-- Signed division (R315, R316): quotient, remainder, flags; V only for 0x8000 ÷ 0xFFFF, D on a zero divisor.
N and Z follow the quotient. -/
def aluDiv (a b : Word) (f : EFlags) : Word × Word × EFlags :=
  if b = 0 then
    let q : Word := if a.msb then 0x8000 else 0x7FFF
    (q, a, withFlags f q.msb false false false false true)
  else
    let q := BitVec.ofInt 16 (Int.tdiv a.toInt b.toInt)
    (q, BitVec.ofInt 16 (Int.tmod a.toInt b.toInt),
      withFlags f q.msb (q == 0) false (a == 0x8000 && b == 0xFFFF) false false)

/-- Unsigned division (R316): D on a zero divisor, C and V clear. -/
def aluDivu (a b : Word) (f : EFlags) : Word × Word × EFlags :=
  if b = 0 then (0xFFFF, a, withFlags f true false false false false true)
  else
    let q := a / b
    (q, a % b, withFlags f q.msb (q == 0) false false false false)

/-- The branch conditions; 0xF names none (R309). -/
def condHolds (cond : BitVec 4) (f : EFlags) : Bool :=
  match cond.toNat with
  | 0x0 => fZ f
  | 0x1 => !fZ f
  | 0x2 => fC f
  | 0x3 => !fC f
  | 0x4 => fN f
  | 0x5 => !fN f
  | 0x6 => fV f
  | 0x7 => !fV f
  | 0x8 => !fC f && !fZ f
  | 0x9 => fC f || fZ f
  | 0xA => fN f == fV f
  | 0xB => fN f != fV f
  | 0xC => !fZ f && fN f == fV f
  | 0xD => fZ f || fN f != fV f
  | 0xE => true
  | _ => false

/-- A return restores N, Z, C, V and I; S and D become the OR of saved and present (R331). -/
def returnFlags (saved cur : EFlags) : EFlags :=
  mkFlags (fN saved) (fZ saved) (fC saved) (fV saved) (fS saved || fS cur) (fD saved || fD cur) (fI saved)

/-- An entry clears I (R331). -/
def clearI (f : EFlags) : EFlags := f &&& 0x3F

end Sys2Proof.Machine
end

