-- ==== Sys2Proof/Machine/Operands.lean ====
section
/-! DEFINITION. Error codes (01_architecture.md, "Error codes"), the order of request checks (R38), and the fields of
operands that commands carry. -/

namespace Sys2Proof.Machine

open Sys2Proof

abbrev eOk : Word := 0x0000
abbrev ePending : Word := 0x0001
abbrev eRange : Word := 0x0101
abbrev eReserved : Word := 0x0102
abbrev eAlign : Word := 0x0103
abbrev eUnknown : Word := 0x0104
abbrev eState : Word := 0x0201
abbrev eStale : Word := 0x0202
abbrev eLocked : Word := 0x0203
abbrev eOwner : Word := 0x0204
abbrev eExhausted : Word := 0x0301
abbrev eBusy : Word := 0x0302
abbrev eFenced : Word := 0x0401
abbrev eUnreach : Word := 0x0402
abbrev eTimeout : Word := 0x0403
abbrev eOtpLocked : Word := 0x0501
abbrev eOtpVerify : Word := 0x0502
abbrev eProof : Word := 0x0601

/-- The first failed check decides the code, and no later check is made (R38): each check is the condition of its
failure and its code. -/
def firstFail : List (Bool × Word) → Word
  | [] => eOk
  | (b, c) :: cs => if b then c else firstFail cs

/-- A reserved argument bit is set: the bits outside `mask` (R684). -/
def resBits (w mask : Word) : Bool := w &&& ~~~mask != 0

/-- A switch-on or set-point request comes from the owner (R36, R37, R27). -/
def ownerIs (u : UnitSt) (o : Owner) (i : Nat) : Bool :=
  u.owner = o && (o = .management || u.oidx.toNat = i)

/-- The requester passes the owner check of unit u: management for a host, the loader and remote paths; the engine
itself (R27, R36, R321). -/
def reqOwns (r : Req) (u : UnitSt) : Bool :=
  match r.eng with
  | some n => ownerIs u .engine n
  | none => ownerIs u .management 0

end Sys2Proof.Machine
end

