-- ==== Sys2Proof/Machine/RegMap.lean ====
section
/-! DEFINITION. The register index (21_register_index_and_codes.md) with the field tables of the owning chapters:
access, bits that are not reserved, reset value, legal range and holder of every address. -/

namespace Sys2Proof.Machine

open Sys2Proof

/-- Access of a register (R3), a reserved address (R668) or an unmapped one (R669). -/
inductive Acc where
  | unmapped
  | reserved
  | ro
  | rw
  | w1c
  | w1s
  | wo
  | rws
  | rwl
  deriving DecidableEq, Repr

/-- What the index says of one address: `mask` are the bits that are no reserved bits, `roMask` the RO bits of a
register that holds others too (R682), `rst` the value after a power-on reset. -/
structure RegInfo where
  acc : Acc
  mask : Word := 0
  roMask : Word := 0
  rst : Word := 0
  deriving DecidableEq, Repr

def rReserved : RegInfo := { acc := .reserved }
def rRo (m : Word) (r : Word := 0) : RegInfo := { acc := .ro, mask := m, rst := r }
def rRw (m : Word) (r : Word := 0) : RegInfo := { acc := .rw, mask := m, rst := r }
def rW1c (m : Word) (o : Word := 0) (r : Word := 0) : RegInfo := { acc := .w1c, mask := m, roMask := o, rst := r }
def rW1s (m : Word) : RegInfo := { acc := .w1s, mask := m }
def rWo (m : Word) : RegInfo := { acc := .wo, mask := m }
def rRws (m : Word) (r : Word := 0) : RegInfo := { acc := .rws, mask := m, rst := r }
def rRwl (m : Word) (r : Word := 0) : RegInfo := { acc := .rwl, mask := m, rst := r }

/-- GLB, 0x0000 to 0x03FF. -/
def glbReg (a : Nat) : RegInfo :=
  match a with
  | 0x00 => rRo 0xFFFF 0x9128
  | 0x01 => rRo 0xFFFF 0x00B0
  | 0x02 => rWo 0xFFFF
  | 0x10 | 0x11 | 0x12 | 0x13 | 0x14 | 0x15 => rRw 0xFFFF
  | 0x18 | 0x19 | 0x1A | 0x1B => rRo 0xFFFF
  | 0x1C => rRw 0xFFFF
  | 0x20 => rRo 0x00FF
  | 0x21 => rRw 0x0001
  | 0x22 | 0x23 | 0x24 => rRo 0xFFFF
  | 0x25 => rRo 0xFFFF 0xFFFF
  | 0x26 | 0x27 => rRo 0xFFFF
  | 0x28 => rRo 0x0001
  | 0x29 | 0x2A => rRo 0xFFFF
  | 0x2B => rRo 0x0FFF
  | 0x2C => rRo 0x01FF
  | 0x2D => rRw 0x0001
  | 0x2E => rW1c 0x000F 0 0x0001
  | 0x30 | 0x31 | 0x32 | 0x33 | 0x34 | 0x35 | 0x36 | 0x37 => rRo 0xFFFF
  | 0x40 => rRo 0x00FF
  | 0x41 => rRo 0xFFFF
  | 0x42 => rRo 0x01FF
  | _ => rReserved

/-- UNIT, 0x0400 to 0x07FF. -/
def unitReg (a : Nat) : RegInfo :=
  if a < 0x500 then rRo 0xFFFF
  else match a with
  | 0x500 => rRw 0x0007
  | 0x501 => rRo 0x00FF
  | 0x502 => rRo 0x03FF
  | 0x504 | 0x505 => rRo 0xFFFF
  | 0x508 => rRo 0x001F
  | 0x509 => rRw 0x001F
  | _ => if 0x510 ≤ a ∧ a ≤ 0x517 then rRo 0xFFFF else rReserved

/-- FLT, 0x0800 to 0x0BFF. -/
def fltReg (a : Nat) : RegInfo :=
  if 0x810 ≤ a ∧ a < 0x860 then
    match (a - 0x810) % 8 with
    | 0 => rRo 0x0FFF
    | 1 => rRo 0xFFFF
    | 2 => rRo 0x0FFF
    | _ => rRo 0xFFFF
  else match a with
  | 0x800 => rRw 0xFFF3 0x0AF0
  | 0x801 => rRo 0x03FF
  | 0x802 => rWo 0x03FF
  | 0x803 | 0x804 => rRo 0x03FF
  | 0x805 => rRw 0x00FF 0x005F
  | 0x808 => rRw 0x0FFF
  | 0x809 => rRwl 0x0007
  | 0x80A => rRo 0xFF07
  | 0x80B => rWo 0xFFFF
  | 0x860 => rRo 0x003F
  | 0x861 => rRw 0x003F
  | 0x862 => rRo 0x007F
  | _ => if 0x870 ≤ a ∧ a ≤ 0x89F then rRo 0xFFFF else rReserved

/-- LOG, 0x0C00 to 0x0FFF. -/
def logReg (a : Nat) : RegInfo :=
  match a with
  | 0xC00 => rRw 0x0001
  | 0xC01 => rW1c 0x0003 0x0002
  | 0xC02 => rRo 0x0FFF
  | 0xC03 => rRw 0x0FFF
  | 0xC04 => rRo 0x1FFF
  | 0xC05 | 0xC06 => rRo 0xFFFF
  | 0xC08 => rRw 0x0FFF
  | _ => if 0xC10 ≤ a ∧ a ≤ 0xC1F then rRo 0xFFFF else rReserved

/-- SWn by offset. -/
def swReg (o : Nat) : RegInfo :=
  match o with
  | 0x00 => rRo 0x000F
  | 0x01 => rRws 0x00FF
  | 0x02 => rRws 0xFFFF 0x0BB8
  | 0x03 => rRws 0xFFFF 0x03E8
  | 0x04 => rRws 0x03FF 0x01F4
  | 0x05 => rRws 0x03FF
  | 0x06 => rRws 0xFFFF 0x1A1A
  | 0x07 => rRws 0xFFFF 0x0A08
  | 0x08 => rRws 0x00FF 0x0064
  | 0x09 => rRws 0xFFFF 0x03E8
  | 0x0A => rRws 0xFFFF 0x1388
  | 0x0B => rRws 0x0FFF 0x0258
  | 0x0C => rRws 0xFFF3 0x1400
  | 0x0D => rRws 0xFFFF 0x4000
  | 0x0E => rRws 0x0FFF 0x0FA0
  | 0x0F => rRws 0x00FF 0x000A
  | 0x10 => rRws 0x00FF 0x007D
  | 0x11 => rW1c 0x000F
  | 0x12 => rRw 0x000F
  | _ => rReserved

/-- LDn by offset. -/
def ldReg (o : Nat) : RegInfo :=
  match o with
  | 0 => rRo 0x0003
  | 1 => rRws 0x0003
  | 2 => rRws 0xFFFF 0x1388
  | 3 => rRws 0xFFFF 0x03E8
  | 4 => rRws 0x00FF 0x0064
  | 5 => rW1c 0x0007
  | 6 => rRw 0x0007
  | _ => rReserved

/-- SVn by offset. -/
def svReg (o : Nat) : RegInfo :=
  match o with
  | 0 => rRo 0x0007
  | 1 => rRws 0x7FFF 0x007C
  | 2 => rRws 0x0FFF 0x0FFF
  | 3 => rRws 0xFFFF 0x2000
  | 4 => rW1c 0x0003
  | 5 => rRw 0x0003
  | _ => rReserved

/-- SEQ, 0x1600 to 0x17FF. The reserved bits of a step word are checked when the step is stored (R171, R175). -/
def seqReg (a : Nat) : RegInfo :=
  match a with
  | 0x1600 => rRo 0x1FFF
  | 0x1601 => rRws 0xFF0F 0x0A00
  | 0x1602 => rRo 0x00FF
  | 0x1603 => rRo 0xFFFF
  | 0x1604 => rRo 0x01FF 0x01F0
  | 0x1608 | 0x1609 | 0x160A | 0x160B | 0x160C | 0x160D => rRws 0x7777
  | 0x1610 => rRw 0x017F
  | 0x1611 | 0x1612 | 0x1613 | 0x1614 => rRw 0xFFFF
  | _ => rReserved

/-- LCPn by offset. -/
def lcpReg (o : Nat) : RegInfo :=
  match o with
  | 0x0 => rRo 0x03FF
  | 0x1 => rRws 0xFFF3 0x4040
  | 0x2 => rRws 0xFFFF
  | 0x3 => rRws 0x00FF
  | 0x4 | 0x5 | 0x6 | 0x7 => rRo 0x00FF
  | 0x8 | 0x9 | 0xA | 0xB => rRo 0xFFFF
  | 0xC => rRw 0xFFFF
  | 0xD => rW1c 0x007F
  | 0xE => rRw 0x007F
  | _ => rReserved

/-- CHG, 0x1A00 to 0x1BFF. -/
def chgReg (a : Nat) : RegInfo :=
  match a with
  | 0x1A00 => rRo 0x7F7F
  | 0x1A01 => rRws 0x03FF
  | 0x1A02 => rRws 0x01FF 0x0064
  | 0x1A03 => rRws 0x01FF 0x000A
  | 0x1A04 => rRws 0x01FF 0x000A
  | 0x1A05 => rRws 0x01FF
  | 0x1A06 => rRws 0x0F1F 0x040A
  | 0x1A07 => rRws 0x00FF 0x0005
  | 0x1A08 => rRws 0xFFFF 0x1E12
  | 0x1A09 => rRws 0x00FF 0x001E
  | 0x1A0A => rRws 0xFFFF 0x3205
  | 0x1A0B => rRws 0xFFFF 0x1194
  | 0x1A0C => rRws 0x0FFF 0x020A
  | 0x1A0D => rRws 0x03FF 0x0064
  | 0x1A0E => rRws 0xFFFF 0x0D6B
  | 0x1A0F => rRws 0x07FF 0x0514
  | 0x1A10 => rRws 0x07FF 0x03E8
  | 0x1A18 | 0x1A19 | 0x1A1A | 0x1A1B | 0x1A1C => rRo 0xFFFF
  | 0x1A1D => rRo 0xFFFF 0x1194
  | 0x1A1E => rRo 0xFFFF
  | 0x1A1F => rRo 0x0001
  | 0x1A20 => rW1c 0x003F
  | 0x1A21 => rRw 0x003F
  | _ => rReserved

/-- The sources of the table "Interrupt sources" that are not reserved, by word of sixteen (R349, R418, R464, R501,
R530). -/
def srcMask (w : Nat) : Word :=
  match w with
  | 0 => 0x03FF
  | 1 | 2 | 3 => 0xFFFF
  | 4 | 5 => 0x0FFF
  | 6 | 7 => 0x001F
  | 8 => 0x0001
  | 9 => 0x01FF
  | 10 => 0x0007
  | 11 => 0x0003
  | 12 | 13 | 14 | 15 => 0x0000
  | _ => if w < 24 then 0xFFFF else 0

/-- IRQ, 0x1C00 to 0x1FFF. -/
def irqReg (a : Nat) : RegInfo :=
  if 0x1C00 ≤ a ∧ a ≤ 0x1C17 then rRw (srcMask (a - 0x1C00))
  else if 0x1C20 ≤ a ∧ a ≤ 0x1C2F then rRo (srcMask (a - 0x1C20))
  else if 0x1C30 ≤ a ∧ a ≤ 0x1C47 then rRo (srcMask (a - 0x1C30))
  else if 0x1C50 ≤ a ∧ a ≤ 0x1C5F then rRo (srcMask (a - 0x1C50))
  else if 0x1C80 ≤ a ∧ a < 0x1D40 then
    (if (a - 0x1C80) % 32 < 24 then rRw (srcMask ((a - 0x1C80) % 32)) else rReserved)
  else if 0x1D50 ≤ a ∧ a ≤ 0x1D57 then rRw 0xFF07 0x0400
  else match a with
  | 0x1D40 | 0x1D41 => rRo 0x03FF 0x03FE
  | 0x1D42 | 0x1D43 | 0x1D44 => rWo 0x03FF
  -- no bit of a doorbell write is reserved: every other value is E_RANGE (R356)
  | 0x1D45 => rWo 0xFFFF
  | 0x1D48 | 0x1D49 | 0x1D4A | 0x1D4B | 0x1D4C | 0x1D4D => rRo 0x83FF 0x03FE
  | 0x1D58 => rW1c 0x00FF
  | 0x1D59 => rRo 0x00FF
  | 0x1D60 => rRw 0x0001
  | 0x1D61 => rW1c 0xFF03 0xFF01
  | _ => rReserved

/-- ENGn by offset. -/
def engReg (o : Nat) : RegInfo :=
  match o with
  | 0x0 => rRo 0xFF0F
  | 0x1 => rRws 0x0007
  | 0x2 => rRws 0xFFFF
  | 0x3 => rRws 0xFFFF 0x2710
  | 0x4 | 0x6 | 0x8 => rRo 0xFFFF
  | 0x5 | 0x7 | 0x9 => rRo 0x007F
  | 0xA => rRo 0x00FF
  | 0xB => rRw 0xFFFF
  | _ => rReserved

/-- DBGn by offset. -/
def dbgReg (o : Nat) : RegInfo :=
  match o with
  | 0x0 => rRwl 0x000F
  | 0x1 => rW1c 0x0007 0x0001
  | 0x2 => rRwl 0xFFFF
  | 0x3 => rRwl 0x007F
  | 0x4 | 0x5 => rRwl 0xFFFF
  | _ => if 0x10 ≤ o ∧ o < 0x20 then rRwl 0xFFFF else rReserved

/-- ENG and DBG, 0x2000 to 0x27FF. -/
def engBlock (a : Nat) : RegInfo :=
  if a < 0x2100 then engReg ((a - 0x2000) % 0x40)
  else if 0x2400 ≤ a ∧ a < 0x2480 then dbgReg ((a - 0x2400) % 0x20)
  else match a with
  | 0x2100 => rW1s 0x0001
  | 0x2101 => rRw 0xFFFF
  | 0x2102 => rRo 0xFFFF
  | _ => rReserved

/-- MEA and TAP, 0x3000 to 0x3FFF. -/
def meaReg (a : Nat) : RegInfo :=
  if a < 0x3020 then
    match a % 4 with
    | 0 => rRws 0x0007 0x0004
    | 1 => rRws 0x7FFF 0x0064
    | 2 => rRo 0xFF3F
    | _ => rReserved
  else if 0x3028 ≤ a ∧ a ≤ 0x3031 then rRws 0x07FF
  else if 0x3038 ≤ a ∧ a ≤ 0x3041 then rRo 0x07FF
  else if 0x3140 ≤ a ∧ a ≤ 0x317F then rRo 0xFFFF
  else match a with
  | 0x3020 => rRws 0xFFFF 0x4B40
  | 0x3021 => rRws 0xFFFF 0x004C
  | 0x3022 => rRo 0x0003
  | 0x3023 => rW1c 0x0007
  | 0x3024 => rRw 0x0007
  | 0x3042 | 0x3043 => rRo 0x07FF 0x0400
  | 0x3100 => rRw 0x00FF
  | 0x3101 => rRw 0xFFFF 0xFFFF
  | 0x3102 => rRo 0x807F
  | 0x3103 => rWo 0xFFFF
  | _ => rReserved

/-- LANEn by offset. -/
def laneReg (o : Nat) : RegInfo :=
  match o with
  | 0x0 => rRws 0x0003
  | 0x1 => rRo 0x001F
  | 0x2 => rRo 0x01FF
  | 0x3 | 0x4 | 0x5 | 0x6 => rRo 0xFFFF
  | 0x7 => rWo 0xFFFF
  | 0x8 => rW1c 0x000F
  | 0x9 => rRw 0x000F
  | _ => rReserved

/-- RING, 0x4000 to 0x47FF. -/
def ringReg (a : Nat) : RegInfo :=
  if 0x4010 ≤ a ∧ a ≤ 0x402F then rRo 0xFFFF
  else if 0x4040 ≤ a ∧ a < 0x4080 then laneReg ((a - 0x4040) % 0x10)
  else if 0x4100 ≤ a ∧ a ≤ 0x41FF then rRws 0x01FF
  else match a with
  | 0x4000 => rRws 0x003F
  | 0x4001 => rRo 0xFF3F
  | 0x4002 => rRo 0x01FF
  | 0x4003 => rRws 0xFFFF 0x03E8
  | 0x4004 => rRws 0xFFFF 0x0064
  | 0x4005 | 0x4006 | 0x4007 => rRws 0xFFFF
  | 0x4008 => rW1c 0x007F
  | 0x4009 => rRw 0x007F
  | 0x400A | 0x400B | 0x400C | 0x400D | 0x400E | 0x400F => rRo 0xFFFF
  | _ => rReserved

/-- FLR, 0x4800 to 0x4FFF. -/
def flrReg (a : Nat) : RegInfo :=
  if 0x4820 ≤ a ∧ a ≤ 0x483F then rRo 0xFFFF
  else if 0x4840 ≤ a ∧ a ≤ 0x484F then rRw 0xFFFF
  else if 0x4850 ≤ a ∧ a ≤ 0x485F then rRo 0xFFFF
  else if 0x4900 ≤ a ∧ a ≤ 0x49FF then rRws 0x01FF
  else match a with
  | 0x4800 => rRws 0x000F
  | 0x4801 => rRo 0x0FFF
  | 0x4802 | 0x4803 | 0x4804 => rRo 0x01FF
  | 0x4805 | 0x4806 | 0x4807 => rRo 0xFFFF
  | 0x4808 | 0x480A => rRo 0x00FF
  | 0x4809 | 0x480B | 0x480C | 0x480D => rRo 0xFFFF
  | 0x480E => rWo 0xFFFF
  | 0x4810 => rRw 0x0001
  | 0x4811 => rRws 0xFFFF 0x0064
  | 0x4812 => rW1c 0x01FF
  | 0x4813 => rRw 0x01FF
  | _ => rReserved

/-- SPH and SPT, 0x5000 to 0x51FF. -/
def spiReg (a : Nat) : RegInfo :=
  if 0x5020 ≤ a ∧ a ≤ 0x503F then rRw 0xFFFF
  else match a with
  | 0x5000 => rRo 0x000F
  | 0x5001 => rRws 0x003F 0x0004
  | 0x5002 => rRws 0xFFFF 0x0003
  | 0x5003 => rRo 0x7FFF 0x0003
  | 0x5004 => rRws 0xFFFF
  | 0x5008 => rW1c 0x0007
  | 0x5009 => rRw 0x0007
  | 0x5010 => rRw 0x00FF
  | 0x5011 | 0x5012 | 0x5013 => rRw 0xFFFF
  | 0x5014 => rWo 0xFFFF
  | 0x5100 => rRo 0x0007
  | 0x5101 => rRws 0x0003
  | 0x5102 => rW1c 0x000F
  | 0x5103 => rRw 0x000F
  | 0x5104 => rRw 0xFFFF
  | _ => rReserved

/-- I2CA (`b` false) and I2CB by offset. -/
def i2cReg (b : Bool) (o : Nat) : RegInfo :=
  if 0x10 ≤ o ∧ o ≤ 0x17 then rRw 0xFFFF
  else match o with
  | 0x0 => if b then rRo 0x0017 0x0010 else rRo 0x000F
  | 0x1 => if b then rRws 0x1F01 0x0600 else rRws 0x1F03 0x0601
  | 0x2 => rRws 0x0FFF 0x003C
  | 0x3 => rRws 0x0FFF 0x0082
  | 0x4 => rRws 0xFFFF 0x1E0A
  | 0x5 => rRws 0xFFFF 0x1919
  | 0x6 => if b then rReserved else rRws 0x007F 0x0048
  | 0x7 => if b then rReserved else rRo 0xFFFF
  | 0x8 => rRw 0x007F
  | 0x9 => if b then rRw 0x07FF else rRw 0x03FF
  | 0xA => rWo 0xFFFF
  | 0xB => rRo 0x80FF
  | 0xC => if b then rW1c 0x000F else rW1c 0x003F
  | 0xD => rRw 0x003F
  | 0xE => if b then rRw 0x0001 else rReserved
  | _ => rReserved

/-- UART, 0x5400 to 0x55FF. -/
def uartReg (a : Nat) : RegInfo :=
  match a with
  | 0x5400 => rRo 0x3F1F 0x2000
  | 0x5401 => rRws 0x0F1F 0x0101
  | 0x5402 => rRws 0xFFFF 0x0364
  | 0x5403 => rRws 0x00FF 0x000A
  | 0x5404 => rRo 0x87FF
  | 0x5405 => rWo 0x00FF
  | 0x5406 => rW1c 0x00FF
  | 0x5407 => rRw 0x00FF
  | _ => rReserved

/-- TMRn by offset. -/
def tmrReg (o : Nat) : RegInfo :=
  match o with
  | 0x0 => rRo 0x000F
  | 0x1 => rRws 0x07FF 0x0100
  | 0x2 => rRws 0xFFFF
  | 0x3 => rW1s 0x0003
  | 0x4 | 0x5 | 0x6 => rRw 0xFFFF
  | 0x7 => rW1c 0x0003
  | 0x8 => rRw 0x0003
  | _ => rReserved

/-- TMR and RTC, 0x5800 to 0x59FF. -/
def timeReg (a : Nat) : RegInfo :=
  if a < 0x5880 then tmrReg ((a - 0x5800) % 0x10)
  else match a with
  | 0x5880 | 0x5881 => rRw 0x00FF
  | 0x5882 => rRo 0x00FF
  | 0x5890 => rRws 0x0001
  | 0x5891 => rRo 0x0003
  | 0x5900 => rRo 0x000F
  | 0x5901 => rW1s 0x0001
  | 0x5902 => rRo 0x3F3F
  | 0x5903 => rRo 0x1F1F
  | 0x5904 => rRo 0x7F0F
  | 0x5905 => rRo 0x7FFF
  | 0x5908 => rRw 0x3F3F
  | 0x5909 => rRw 0x1F1F
  | 0x590A => rRw 0x7F0F
  | 0x5910 | 0x5914 => rRw 0xBFBF
  | 0x5911 | 0x5915 => rRw 0x9F9F
  | 0x5912 | 0x5916 => rRw 0x018F
  | 0x5920 => rRw 0x000F
  | 0x5921 | 0x5922 => rRw 0xFFFF
  | 0x5924 => rW1c 0x001F
  | 0x5925 => rRw 0x001F
  | _ => rReserved

/-- OTP and PROOF, 0x6000 to 0x6FFF. -/
def otpReg (a : Nat) : RegInfo :=
  match a with
  | 0x6000 => rRo 0x0007
  | 0x6001 => rRo 0x007F
  | 0x6002 => rRw 0x00FF
  | 0x6003 => rRo 0xFFFF
  | 0x6004 => rW1c 0x0003
  | 0x6005 => rRw 0x0003
  | 0x6800 => rRo 0x03FF
  | 0x6801 => rRo 0x0003
  | 0x6802 | 0x6803 | 0x6804 | 0x6805 => rRo 0xFFFF
  | 0x6806 => rRw 0xFFFF 0x03E8
  | 0x6807 => rW1c 0x0001
  | 0x6808 => rRw 0x0001
  | _ => rReserved

/-- CMD, 0x7000 to 0x7FFF. -/
def cmdReg (a : Nat) : RegInfo :=
  if a ≤ 0x7009 then rRw 0xFFFF else if a ≤ 0x700E then rRo 0xFFFF else rReserved

/-- The register index: what stands at an address (R667 to R670). -/
def regInfo (a : Nat) : RegInfo :=
  if a < 0x0400 then glbReg a
  else if a < 0x0800 then unitReg a
  else if a < 0x0C00 then fltReg a
  else if a < 0x1000 then logReg a
  else if a < 0x1400 then swReg ((a - 0x1000) % 0x40)
  else if a < 0x1500 then ldReg ((a - 0x1400) % 0x20)
  else if a < 0x1600 then svReg ((a - 0x1500) % 0x08)
  else if a < 0x1800 then seqReg a
  else if a < 0x1840 then lcpReg ((a - 0x1800) % 0x10)
  else if a < 0x1A00 then rReserved
  else if a < 0x1C00 then chgReg a
  else if a < 0x2000 then irqReg a
  else if a < 0x2800 then engBlock a
  else if a < 0x3000 then { acc := .unmapped }
  else if a < 0x4000 then meaReg a
  else if a < 0x4800 then ringReg a
  else if a < 0x5000 then flrReg a
  else if a < 0x5200 then spiReg a
  else if a < 0x5300 then i2cReg false (a - 0x5200)
  else if a < 0x5400 then i2cReg true (a - 0x5300)
  else if a < 0x5600 then uartReg a
  else if a < 0x5800 then { acc := .unmapped }
  else if a < 0x5A00 then timeReg a
  else if a < 0x6000 then { acc := .unmapped }
  else if a < 0x7000 then otpReg a
  else if a < 0x8000 then cmdReg a
  else if a < 0xA000 then rRw 0xFFFF
  else { acc := .unmapped }

/-- The value a register reads after a power-on reset (R667); registers whose reset value comes from OTP read here
what a blank OTP gives. -/
def resetValue (a : Nat) : Word := (regInfo a).rst

/-- The _LO words of the 32-bit quantities that latch (R7): the _HI word follows at the next address. The device-time
words follow R52 and R53 instead. -/
def pairLo (a : Nat) : Bool :=
  a == 0x0027 || a == 0x0029 || a == 0x0504 || a == 0x0C05 || a == 0x3020 || a == 0x400A || a == 0x400C ||
  a == 0x400E || a == 0x4043 || a == 0x4053 || a == 0x4063 || a == 0x4073 || a == 0x4805 || a == 0x5011 ||
  a == 0x6802 || a == 0x6804

/-- The _HI words of those pairs. -/
def pairHi (a : Nat) : Bool := 0 < a && pairLo (a - 1)

/-- A register that State holds as a word. -/
def State.reg (s : State) (a : Nat) : Word := mget resetValue s.regs a
def State.setReg (s : State) (a : Nat) (w : Word) : State := { s with regs := mset resetValue s.regs a w }

/-- Bits of `m` set in a register: an event flag. -/
def State.orReg (s : State) (a : Nat) (m : Word) : State := s.setReg a (s.reg a ||| m)

/-- The two words of a 32-bit quantity. -/
def State.setPair (s : State) (lo : Nat) (v : BitVec 32) : State :=
  (s.setReg lo (v.setWidth 16)).setReg (lo + 1) ((v >>> 16).setWidth 16)
def State.pair (s : State) (lo : Nat) : BitVec 32 := (s.reg (lo + 1)) ++ (s.reg lo)

/-- The holder of a staged register (R267): the unit it belongs to, or one of the holders that are no unit. -/
def holderOf (a : Nat) : Option Holder :=
  if (regInfo a).acc != .rws then none
  else if a < 0x1400 then some (.unit ((a - 0x1000) / 0x40))
  else if a < 0x1500 then some (.unit (uLd ((a - 0x1400) / 0x20)))
  else if a < 0x1600 then some (.unit (uSv ((a - 0x1500) / 0x08)))
  else if a < 0x1800 then some .seq
  else if a < 0x1A00 then some (.unit (uLcp ((a - 0x1800) / 0x10)))
  else if a < 0x1C00 then some (.unit uChg)
  else if a < 0x2400 then some (.unit (uEng ((a - 0x2000) / 0x40)))
  else if a < 0x3020 then some (.unit (uMc ((a - 0x3000) / 4)))
  else if a < 0x4000 then some .mea
  else if 0x4040 ≤ a ∧ a < 0x4080 then some (.unit (uLane ((a - 0x4040) / 0x10)))
  else if a < 0x4800 then some .ring
  else if a = 0x4800 then some (.unit uFloor)
  else if a < 0x5000 then some .flr
  else if a < 0x5100 then some (.unit uSph)
  else if a < 0x5200 then some (.unit uSpt)
  else if a < 0x5300 then some (.unit uI2ca)
  else if a < 0x5400 then some (.unit uI2cb)
  else if a < 0x5600 then some (.unit uUart)
  else if a < 0x5880 then some (.unit (uTmr ((a - 0x5800) / 0x10)))
  else some .tb

/-- Registers of a unit by address range, for a block reset (R240). -/
def unitOfAddr (a : Nat) : Option Nat :=
  if 0x1000 ≤ a ∧ a < 0x1400 then some ((a - 0x1000) / 0x40)
  else if 0x1400 ≤ a ∧ a < 0x1500 then some (uLd ((a - 0x1400) / 0x20))
  else if 0x1500 ≤ a ∧ a < 0x1600 then some (uSv ((a - 0x1500) / 0x08))
  else if 0x1800 ≤ a ∧ a < 0x1840 then some (uLcp ((a - 0x1800) / 0x10))
  else if 0x1A00 ≤ a ∧ a < 0x1C00 then some uChg
  else if 0x2000 ≤ a ∧ a < 0x2100 then some (uEng ((a - 0x2000) / 0x40))
  else if 0x2400 ≤ a ∧ a < 0x2480 then some (uEng ((a - 0x2400) / 0x20))
  else if 0x3000 ≤ a ∧ a < 0x3020 then some (uMc ((a - 0x3000) / 4))
  else if 0x4040 ≤ a ∧ a < 0x4080 then some (uLane ((a - 0x4040) / 0x10))
  else if 0x4800 ≤ a ∧ a < 0x4860 then some uFloor
  else if 0x5000 ≤ a ∧ a < 0x5100 then some uSph
  else if 0x5100 ≤ a ∧ a < 0x5200 then some uSpt
  else if 0x5200 ≤ a ∧ a < 0x5300 then some uI2ca
  else if 0x5300 ≤ a ∧ a < 0x5400 then some uI2cb
  else if 0x5400 ≤ a ∧ a < 0x5600 then some uUart
  else if 0x5800 ≤ a ∧ a < 0x5880 then some (uTmr ((a - 0x5800) / 0x10))
  else none

/-- Registers kept over a chip reset: the retention domain (R88, R193, R251, R259, R279, R296, R512, R517, R639;
03_start_up_and_grist.md, "Registers") and the RTC island. -/
def keptOverReset (a : Nat) : Bool :=
  a == 0x0021 || a == 0x002E || a == 0x0508 || a == 0x0509 || (0x0810 ≤ a && a < 0x0860) || a == 0x0860 ||
  a == 0x0862 || (0x0C00 ≤ a && a ≤ 0x0C06) || a == 0x1604 || a == 0x1A1E || a == 0x1A1F ||
  (0x5900 ≤ a && a < 0x5A00) || (0x6800 ≤ a && a ≤ 0x6805)

/-- Registers kept over a power-on reset: the non-volatile record store's pointers (R259). The RTC island's are kept
while its supply lasts (R613). -/
def keptOverPor (a : Nat) : Bool := a == 0x0860 || a == 0x0862

/-- Word i of the calibration bank in use (R619, R620). -/
def calWord (s : State) (i : Nat) : Word := mget dZero s.otp.sensed ((if bit (s.reg 0x6000) 2 then 0x40 else 0x20) + i)

/-- The conditions of R624 (OTP_ST.KILNOK). While DIE_SHUT is present the junction is above 85 °C (R664). -/
def kilnOk (s : State) : Bool :=
  s.supply.vsysOk && !(s.flt 0x201).present && decide (0 ≤ s.supply.dieC ∧ s.supply.dieC ≤ 85)

/-- A kiln whose conditions fail is to end after the pulse in progress (R626). -/
def kilnWatch (s : State) : State :=
  if kilnOk s then s else { s with otp := { s.otp with kiln := s.otp.kiln.map fun (k : Kiln) => { k with ended := true } } }

end Sys2Proof.Machine
end

