-- ==== Sys2Proof/Machine/Flash.lean ====
section
/-! DEFINITION. Commands of the SPI host to the flash memory, and the XIP window (09_recipe_engines.md, R339;
15_spi_ports.md, R531 to R542). -/

namespace Sys2Proof.Machine

open Sys2Proof

/-- The read mode that the next command uses: SPH_RDCFG's while OVR is 1, else the load mode (R538). -/
def rdMode (s : State) : Word :=
  if bit (s.reg 0x5002) 15 then s.reg 0x5002 &&& 0x7FFF else (s.sphMode &&& 0x3FFF) ||| wd (flag s.sphAddr4 14)

/-- A byte address as the memory takes it: modulo 2^24 where the mode has 3-byte addresses (R533). -/
def memAddr (s : State) (a : Nat) : Nat := if bit (rdMode s) 14 then a % 4294967296 else a % 16777216

/-- The read command of `len` bytes from byte address `a`, in the mode in use (R538). -/
def readCmd (s : State) (a len : Nat) : SphCmd :=
  let m := rdMode s
  { op := m.setWidth 8, div := field (s.reg 0x5001) 5 0, addr := some (memAddr s a), addrBytes := if bit m 14 then 4 else 3, dummy := field m 11 8,
    lines := 2 ^ field m 13 12, rd := len, wr := [] }

/-- SPH_ST.XBUSY (R542). -/
def xBusy (s : State) : Bool := bit (s.reg 0x5000) 3

/-- A command begins (R538): what has been committed is in use from now on. -/
def sphIssue (s : State) (x : SphCmd) : State := { s with sphCmd := some x, sphUse := rdMode s }

/-- XIPOFS: the byte at which the XIP window begins in the memory (R539). -/
def xipOfs (s : State) : Nat := (s.reg 0x5004).toNat * 0x1000

/-- The byte address of the low byte of code word `a`, 0x2000 to 0xFFFF (R339). -/
def xipByte (s : State) (a : Nat) : Nat := xipOfs s + 2 * (a - 0x2000)

/-- The word of two bytes of flash, the lower byte first (R339). -/
def flashWord (bs : List Byte) (i : Nat) : Word := wd ((bs.getD (2 * i) 0).toNat + 256 * (bs.getD (2 * i + 1) 0).toNat)

/-- The sixteen words of a line from its 32 bytes (R339, R340). -/
def lineWords (bs : List Byte) : List Word := (List.range 16).map (flashWord bs)

/-- Byte i of a row of data registers from `a`: two bytes to a word, the lower first (R542). -/
def dataByte (s : State) (a i : Nat) : Byte := ((s.reg (a + i / 2)) >>> (8 * (i % 2))).setWidth 8

/-- The command that SPH_XOP, SPH_XADDR and SPH_XCTRL spell (R542): the opcode and the address on one line, LINES for the
data phase alone. -/
def directCmd (s : State) : SphCmd :=
  let c := s.reg 0x5013
  let len := if bit c 9 then 0 else field c 15 10 + 1
  let ab := match field c 1 0 with
    | 0 => 0
    | n => n + 2
  { op := (s.reg 0x5010).setWidth 8, div := field (s.reg 0x5001) 5 0, addr := if ab = 0 then none else some ((s.pair 0x5011).toNat % 256 ^ ab),
    addrBytes := ab, dummy := field c 5 2, lines := 2 ^ field c 7 6, rd := if bit c 8 then 0 else len,
    wr := if bit c 8 then (List.range len).map (dataByte s 0x5020) else [] }

end Sys2Proof.Machine
end

