-- ==== Sys2Proof/Machine/Sources.lean ====
section
/-! DEFINITION. The fault sources (07_fault_handling.md, R232): their table, their levels, and the interrupt sources that an
occurrence of one holds back (08_commits_recovery_and_cellar.md, R286). -/

namespace Sys2Proof.Machine

open Sys2Proof

/-- A set of sources. -/
abbrev SrcSet := BitVec 384

/-- The set of one source. -/
def srcBit (n : Nat) : SrcSet := if n < 384 then 1#384 <<< n else 0

/-- One row of the table "Fault sources" (R232). -/
structure SrcInfo where
  cond : Bool
  unit : Option Nat
  lvl : BitVec 3
  deriving DecidableEq, Repr

/-- The table "Fault sources" (R232); none for a reserved source (R233). -/
def srcInfo (cls src : Nat) : Option SrcInfo :=
  match cls with
  | 0 => if src < 8 then some { cond := src ≠ 2, unit := none, lvl := 1 } else none
  | 1 => if src < 0x18 ∨ (0x20 ≤ src ∧ src < 0x40) then some { cond := false, unit := none, lvl := 1 } else none
  | 2 => if src < 3 then some { cond := true, unit := none, lvl := 1 } else none
  | 3 => if src < 8 then some { cond := src ≠ 4 && src ≠ 7, unit := some uChg, lvl := 3 } else none
  | 4 =>
    if src < 4 then some { cond := true, unit := some (uLane src), lvl := 3 }
    else if src < 8 then some { cond := false, unit := some (uLane (src - 4)), lvl := 3 }
    else if src < 11 then some { cond := true, unit := none, lvl := 1 }
    else none
  | 5 => if src < 6 then some { cond := src ≠ 4, unit := some uFloor, lvl := 1 } else none
  | 6 =>
    if src < 12 then some { cond := false, unit := some (uLcp (src / 3)), lvl := 1 }
    else match src with
    | 0x10 | 0x11 => some { cond := true, unit := some uI2ca, lvl := 1 }
    | 0x12 | 0x13 => some { cond := true, unit := some uI2cb, lvl := 1 }
    | 0x14 => some { cond := false, unit := some uSpt, lvl := 1 }
    | 0x15 => some { cond := false, unit := some uSph, lvl := 1 }
    | _ => none
  | 7 => if src < 32 ∧ src % 8 < 5 then some { cond := false, unit := some (uEng (src / 8)), lvl := 3 } else none
  | 8 => if src < 6 then some { cond := false, unit := none, lvl := if src = 0 then 0 else 1 } else none
  | 9 => if src < 4 then some { cond := src ≠ 0, unit := none, lvl := 1 } else none
  | _ => none

/-- The ENGINE-class source of an exception (R335); a TRAP is none (R336). -/
def Exc.src : Exc → Option Nat
  | .illegal => some 0
  | .divzero => some 2
  | .fetch => some 3
  | .trap => none

/-- Configured level of a source by key 256 cls + src: its reset level where FLT_SCFG was not written (R232). -/
def dLvl : Nat → BitVec 3 := fun k => match srcInfo (k / 256) (k % 256) with
  | some i => i.lvl
  | none => 0

/-- The sources of a unit, for the hold of R286 (R350). -/
def unitSources (u : Nat) : SrcSet :=
  if u < 0x010 then srcBit (0x010 + u)
  else if u < 0x018 then srcBit (0x020 + (u - 0x010))
  else if u < 0x038 then srcBit (0x028 + (u - 0x018))
  else if u < 0x03C then 0
  else if u < 0x040 then srcBit (0x048 + (u - 0x03C))
  else if u < 0x048 then srcBit (0x050 + (u - 0x040))
  else if u < 0x04C then srcBit (0x071 + (u - 0x048))
  else if u = uFloor then srcBit 0x080
  else if u = uChg then srcBit 0x098
  else if u < 0x056 then srcBit 0x0A0 ||| srcBit 0x0A1 ||| srcBit 0x0A2
  else if u < 0x05B then srcBit (0x060 + (u - 0x056))
  else if 0x080 ≤ u then srcBit 0x0A0 ||| srcBit 0x0A1 ||| srcBit 0x0A2
  else 0

/-- The interrupt sources held for an occurrence (R286): those of the unit it names, or of the detecting rail, LDO or
supervisor (R350). -/
def heldFor (cls src : Nat) (unit : Option Nat) : SrcSet :=
  match unit with
  | some u => unitSources u
  | none =>
    if cls ≠ 1 then 0
    else if src < 0x18 then unitSources src
    else if 0x20 ≤ src then unitSources (uSv (src - 0x20))
    else 0

/-- Configured level of a source (FLT_SCFG). -/
def levelOf (s : State) (cls src : Nat) : Nat := (mget dLvl s.flvl (256 * cls + src)).toNat

/-- The effective level (R244). -/
def effLevel (s : State) (cls src : Nat) : Nat :=
  let l := levelOf s cls src
  if s.unack.getLsbD cls then min 6 (l + 1) else l

/-- The interrupt sources that occurrences hold which the collector has not taken yet: from detection on, those of a unit or
detecting rail named at an effective level of 1 or above are not presented (R286). -/
def lateHeld (s : State) : SrcSet := s.occs.foldl (fun v o => if 1 ≤ effLevel s o.cls o.src then v ||| o.hold else v) 0

end Sys2Proof.Machine
end

