-- ==== Sys2Proof/Machine/Router.lean ====
section
/-! DEFINITION. The interrupt router's shared operations (10_interrupt_router.md): live assertions, pending bits,
eligibility, presentation, claim and completion, and what follows every command at once (`settle`). -/

namespace Sys2Proof.Machine

open Sys2Proof

/-- An event register's enabled flags are not all zero. -/
def State.evtOn (s : State) (evt en : Nat) (m : Word := 0xFFFF) : Bool := s.reg evt &&& s.reg en &&& m != 0

/-- Some local queue of a tap opened with RDYIRQ holds a block (R418). -/
def tapsReady (s : State) : Bool :=
  s.mea.taps.any fun p => match p.2 with
    | some t => t.dest == 0 && t.rdyirq && !t.queue.isEmpty
    | none => false

/-- The live assertion of source n (R167, R230, R235, R358, R418, R464, R501, R530, R556, R586, R601, R608, R631;
19_proof.md, "Registers"). -/
def asserted (s : State) (n : Nat) : Bool :=
  if n < 0x00A then s.unack.getLsbD n
  else if n < 0x010 then false
  else if n < 0x020 then s.evtOn (0x1011 + 0x40 * (n - 0x010)) (0x1012 + 0x40 * (n - 0x010))
  else if n < 0x028 then s.evtOn (0x1405 + 0x20 * (n - 0x020)) (0x1406 + 0x20 * (n - 0x020))
  else if n < 0x048 then s.evtOn (0x1504 + 0x08 * (n - 0x028)) (0x1505 + 0x08 * (n - 0x028))
  else if n < 0x04C then s.evtOn (0x180D + 0x10 * (n - 0x048)) (0x180E + 0x10 * (n - 0x048))
  else if n < 0x050 then false
  else if n < 0x058 then s.evtOn (0x5807 + 0x10 * (n - 0x050)) (0x5808 + 0x10 * (n - 0x050))
  else match n with
  | 0x058 => s.evtOn 0x5924 0x5925 0x0001
  | 0x059 => s.evtOn 0x5924 0x5925 0x0002
  | 0x05A => s.evtOn 0x5924 0x5925 0x0004
  | 0x05B => s.evtOn 0x5924 0x5925 0x0018
  | 0x060 => s.evtOn 0x5008 0x5009
  | 0x061 => s.evtOn 0x5102 0x5103
  | 0x062 => s.evtOn 0x520C 0x520D
  | 0x063 => s.evtOn 0x530C 0x530D
  | 0x064 => s.evtOn 0x5406 0x5407
  | 0x070 => s.evtOn 0x4008 0x4009
  | 0x071 => s.evtOn 0x4048 0x4049
  | 0x072 => s.evtOn 0x4058 0x4059
  | 0x073 => s.evtOn 0x4068 0x4069
  | 0x074 => s.evtOn 0x4078 0x4079
  | 0x080 => s.evtOn 0x4812 0x4813
  | 0x098 => s.evtOn 0x1A20 0x1A21
  | 0x0A0 => s.evtOn 0x3023 0x3024
  | 0x0A1 => tapsReady s
  | 0x0A2 => s.mea.colq.any fun q => !q.blocks.isEmpty
  | 0x0B0 => s.evtOn 0x6807 0x6808
  | 0x0B1 => s.evtOn 0x6004 0x6005
  | _ =>
    if 0x090 ≤ n ∧ n ≤ 0x097 then
      let i := n - 0x090
      let lvl := s.extLvl.toNat.testBit i
      match field (s.reg (0x1D50 + i)) 2 0 with
      | 1 => lvl
      | 2 => !lvl
      | 3 | 4 | 5 => bit (s.reg 0x1D58) i
      | _ => false
    else false

/-- The live assertions of all sources (IRQ_ASRT). -/
def assertVec (s : State) : SrcSet :=
  (List.range 0xB2).foldl (fun v n => if asserted s n then v ||| srcBit n else v) 0

def Irq.enOf (q : Irq) (t : Nat) : SrcSet := mget dSet q.en t
def Irq.clmOf (q : Irq) (t : Nat) : SrcSet := mget dSet q.clm t
def Irq.presOf (q : Irq) (t : Nat) : Option Nat := mget dPres q.pres t

/-- Every claimed source, whoever claimed it. -/
def Irq.claimed (q : Irq) : SrcSet := q.clm.foldl (fun v p => v ||| p.2) 0

/-- Every held source (R286, R371): of occurrences that the collector has taken, and of those that it has not. -/
def Irq.held (q : Irq) : SrcSet := q.holds.foldl (fun v p => v ||| p.2) q.late

/-- The sources eligible for target t (10_interrupt_router.md, "How the router works"). -/
def Irq.eligible (q : Irq) (t : Nat) : SrcSet := q.pend &&& q.enOf t &&& ~~~q.claimed &&& ~~~q.held

/-- The lowest-numbered source of a set. -/
def lowest (v : SrcSet) : Option Nat := (List.range 384).find? fun n => v.getLsbD n

/-- R361: P(t) becomes the lowest eligible source whenever the eligible set of t changes while it is not empty. -/
def Irq.present (q : Irq) (t : Nat) : Irq :=
  let e := q.eligible t
  if e = mget dSet q.elig t then q
  else
    let q := { q with elig := mset dSet q.elig t e }
    if e = 0 then q
    else { q with pres := mset dPres q.pres t (lowest e), taken := mset dOff q.taken t false }

/-- The sources that have a live assertion, 0x000 to 0x0FF; a doorbell's pending bit comes from a message alone
(10_interrupt_router.md, "How the router works"). -/
def lineSources : SrcSet := BitVec.ofNat 384 (2 ^ 256 - 1)

/-- The router after a change of the live assertions or of what waiting occurrences hold: R351, R352, then R361 for every
target. -/
def Irq.update (q : Irq) (now late : SrcSet) : Irq :=
  let free := ~~~q.claimed &&& lineSources
  let q := { q with
    pend := (q.pend ||| (now &&& free)) &&& ~~~(q.asrt &&& ~~~now &&& free)
    asrt := now, late := late }
  [0, 1, 2, 3, 4, 5].foldl Irq.present q

/-- A claim by target t (R362 to R364): the number returned, and the router after it. -/
def Irq.claim (q : Irq) (t : Nat) : Nat × Irq :=
  match lowest (q.eligible t) with
  | some n =>
    let q := { q with pend := q.pend &&& ~~~srcBit n, clm := mset dSet q.clm t (q.clmOf t ||| srcBit n) }
    -- another target whose P(u) is this source sees it taken (R363)
    let tk := [0, 1, 2, 3, 4, 5].foldl
      (fun m u => if u ≠ t ∧ q.presOf u = some n then mset dOff m u true else m) q.taken
    let q := { q with taken := tk }
    -- a class source's claim ends the holds of that class (R371)
    let q := if n < 0x00A then { q with holds := q.holds.filter fun h => h.1 ≠ n } else q
    (n, { q with pres := mset dPres q.pres t (lowest (q.eligible t)), taken := mset dOff q.taken t false,
                 elig := mset dSet q.elig t (q.eligible t) })
  | none =>
    (if mget dOff q.taken t && (q.presOf t).isSome then 0x3FF else 0x3FE,
      { q with pres := mset dPres q.pres t none, taken := mset dOff q.taken t false })

/-- Source n is completed for target t: it is free again (R367, R368). -/
def Irq.complete (q : Irq) (t n : Nat) : Irq :=
  { q with clm := mset dSet q.clm t (q.clmOf t &&& ~~~srcBit n) }

/-- R304, R369: every source that target t claimed is unclaimed; its doorbells are pending again. -/
def Irq.release (q : Irq) (t : Nat) : Irq :=
  let c := q.clmOf t
  { q with clm := mset dSet q.clm t 0, pend := q.pend ||| (c >>> 0x100 <<< 0x100) }

/-- The router's store without power: what deep sleep takes from it (R377). -/
def Irq.unpowered (q : Irq) : Irq :=
  { q with pend := 0, asrt := 0, en := [], clm := [], pres := [], taken := [], elig := [], holds := [], late := 0 }

/-- The restore that ends a deep sleep (R378). Assertions count as absent before it, so R351 then applies to every
source and nothing saved is withdrawn. -/
def Irq.restore (q : Irq) : Irq :=
  match q.saved with
  | none => { q with asleep := false }
  | some v => { q with asleep := false, saved := none, pend := v.pend, asrt := 0, en := v.en, clm := v.clm,
                       pres := v.pres, taken := v.taken, elig := [], holds := v.holds ++ q.holds }

/-- The router before an access: an access ends a deep sleep (R378). -/
def Irq.awake (q : Irq) : Irq := if q.asleep then q.restore else q

/-- Doorbell source n is rung (R353); that ends a deep sleep (R378). -/
def Irq.ring (q : Irq) (n : Nat) : Irq := { q.awake with pend := q.awake.pend ||| srcBit n }

/-- An engine's register. -/
def Eng.greg (e : Eng) (i : Nat) : Word := mget dZero e.g (i % 16)
def Eng.setG (e : Eng) (i : Nat) (w : Word) : Eng := { e with g := mset dZero e.g (i % 16) w }

/-- The end of an instruction or a vector entry: a STEP halts the engine again (R346). -/
def engFinish (e : Eng) : Eng := { e with skipBp := false, halted := e.halted || e.stepArm, stepArm := false }

/-- R328: SLEEPING engine n wakes when a source enabled for it is pending, claimed or held or not, or an NMI has
arrived; it goes on after SLEEP. R326: a WAIT ends, with 0x0000 in its register, when its source is pending. In a deep sleep of
the router no saved pending bit does either (DESIGN CHOICE, log entry 77). -/
def wake (s : State) (n : Nat) : State :=
  let u := s.unit (uEng n)
  let e := s.eng n
  if u.fenced || e.halted || e.stopReq || e.haltReq then s
  else if u.code = 2 then
    if s.irq.pend &&& s.irq.enOf n ≠ 0 ∨ e.nmipend then
      (s.setCode (uEng n) 1).setEng n (engFinish { e with pc := e.pc + 1 })
    else s
  else if u.code = 3 then
    match e.waiting with
    | some (d, src, _) =>
      if src.toNat < 0x180 ∧ s.irq.pend.getLsbD src.toNat then
        (s.setCode (uEng n) 1).setEng n (engFinish { e.setG d.toNat 0 with waiting := none, pc := e.pc + 1 })
      else s
    | none => s
  else s

/-- The router after the present state of every block; nothing while it sleeps (R377). -/
def settleIrq (s : State) : Irq := if s.irq.asleep then s.irq else s.irq.update (assertVec s) (lateHeld s)

/-- HOST_IRQA_N (target 4) or HOST_IRQB_N (target 5) is driven low: a source is eligible for its target; in chip reset both are
released (R359). -/
def hostLineLow (s : State) (t : Nat) : Bool :=
  s.boot.reset.isNone && s.boot.phase != .supply && s.boot.phase != .oscillator && !s.irq.asleep && s.irq.eligible t != 0

/-- What follows every command at once: the router takes in the live assertions, and engines that wait or sleep for a
pending source go on. It changes the router, and of an engine that wakes its state code, pc and result register. -/
def settle (s : State) : State :=
  [0, 1, 2, 3].foldl wake { s with irq := settleIrq s }

/-- A command is done: the next state. -/
def done (s : State) : Host.Outcome State Fault Refusal := .next (settle s)

end Sys2Proof.Machine
end

