-- ==== Sys2Proof/Machine/Collect.lean ====
section
/-! DEFINITION. Shared operations below every family: the cellar log writer (08_commits_recovery_and_cellar.md), the
fault sources and their occurrences (07_fault_handling.md), outcome records of the load command ports
(06_load_command_ports.md), and the cold stop (05_sequencing_and_cold_stop.md). -/

namespace Sys2Proof.Machine

open Sys2Proof

-- device time

/-- Device time as read (R51, R683). -/
def State.now (s : State) : BitVec 64 := s.clock.t

-- the cellar log

/-- LOG_FILL in stop-on-full mode is 4095 or more (R295, LOG_ST.FULL). -/
def logFull (s : State) : Bool := bit (s.reg 0x0C00) 0 && (s.reg 0x0C04).toNat ≥ 4095

/-- One entry stored in the slot at LOG_WRPTR, with the next sequence number (R291, R292, R294). -/
def logStore (s : State) (typ : Nat) (inj : Bool) (payload : List Word) : State :=
  let pay := (payload ++ List.replicate 8 0).take 8
  let w0 := wd (typ + flag inj 8)
  let rest := [s.logSeq.setWidth 16, (s.logSeq >>> 16).setWidth 16] ++ timeWords s.now ++ pay
  let ws := [w0, crc16words (w0 :: rest)] ++ rest
  let slot := (s.reg 0x0C02).toNat
  let mem := (List.range 16).foldl (fun m i => mset dZero m (slot * 16 + i) (ws.getD i 0)) s.log
  let next := wd ((slot + 1) % 4096)
  let s := { s with log := mem, logSeq := s.logSeq + 1 }
  let s := s.setReg 0x0C02 next
  if (s.reg 0x0C04).toNat ≥ 4096 then (s.setReg 0x0C03 next).orReg 0x0C01 1
  else s.setReg 0x0C04 (s.reg 0x0C04 + 1)

/-- The writer takes an entry: discarded while the log is full in stop-on-full mode; preceded by a GAP entry while
LOG_LOST is not 0 (R295). -/
def logPut (s : State) (typ : Nat) (inj : Bool) (payload : List Word) : State :=
  if logFull s then { s with logLost := if s.logLost = 0xFFFFFFFF then s.logLost else s.logLost + 1 }
  else
    let s := if s.logLost = 0 then s
      else { logStore s 0x08 false [s.logLost.setWidth 16, (s.logLost >>> 16).setWidth 16, 1] with logLost := 0 }
    logStore s typ inj payload

-- the fault sources

/-- A detection of source `src` of class `cls`: its occurrence waits for the collector (R234, R245). -/
def State.occur (s : State) (cls src : Nat) (det : Byte) (stop : Option Word := none) (inj : Bool := false) : State :=
  let unit := (srcInfo cls src).bind (·.unit)
  let gen : Byte := match unit with
    | some u => (s.unit u).gen
    | none => 0
  { s with occs := s.occs ++ [{ cls := cls, src := src, det := det, unit := unit, gen := gen, time := s.now,
                                inj := inj, stop := stop, hold := heldFor cls src unit }] }

/-- Whether the live condition of a source is present (R247). -/
def State.present (s : State) (cls src : Nat) : Bool := (s.flt (256 * cls + src)).present

/-- The condition of a source becomes present: one occurrence (07_fault_handling.md, "How fault collection works"). -/
def State.condOn (s : State) (cls src : Nat) (det : Byte) (stop : Option Word := none) : State :=
  let f := s.flt (256 * cls + src)
  if f.present then s
  else (s.setFlt (256 * cls + src) { f with present := true }).occur cls src det stop

/-- The condition of a source is absent: TRANSIENT is set when PEND is 1 (R247). -/
def State.condOff (s : State) (cls src : Nat) : State :=
  let f := s.flt (256 * cls + src)
  if f.present then s.setFlt (256 * cls + src) { f with present := false, transient := f.transient || f.pend } else s

/-- The condition follows its live state. -/
def State.condSet (s : State) (cls src : Nat) (det : Byte) (on : Bool) : State :=
  if on then s.condOn cls src det else s.condOff cls src

-- gangs and rails

/-- GANG field of controller k: phases − 1 (R130). -/
def gangOf (s : State) (k : Nat) : Nat := field (s.reg (0x1001 + 0x40 * k)) 4 3

/-- The leader of controller n: itself when it is in no gang (R131). -/
def leaderOf (s : State) (n : Nat) : Nat :=
  ((List.range 4).map (fun i => n / 4 * 4 + i)).find? (fun k => k < n && n ≤ k + gangOf s k) |>.getD n

/-- Rail codes: 0x00 to 0x0F SW00 to SW15, 0x10 to 0x17 LD0 to LD7; they are unit numbers too. -/
def railCodes : List Nat := List.range 24

/-- Register base of a rail code. -/
def railBase (k : Nat) : Nat := if k < 16 then 0x1000 + 0x40 * k else 0x1400 + 0x20 * (k - 16)

/-- The committed CFG.ON of a rail or LDO (R277). -/
def State.setOn (s : State) (k : Nat) (on : Bool) : State :=
  let a := railBase k + 1
  s.setReg a ((s.reg a &&& 0xFFFE) ||| wd (b2n on))

-- outcome records of the load command ports

/-- Slot k = 4p + m is enabled (LCPn_MAPEN.EN), and the rail it maps. -/
def slotEnabled (s : State) (k : Nat) : Bool := bit (s.reg (0x1803 + 0x10 * (k / 4))) (k % 4)
def slotRail (s : State) (k : Nat) : Nat := field (s.reg (0x1802 + 0x10 * (k / 4))) (4 * (k % 4) + 3) (4 * (k % 4))

/-- An outcome record (R216): OUTCOME 1 DONE, 2 NACK, 3 CHANGED. -/
def outcomeWord (o : Nat) (tag : BitVec 2) (reason : Nat) (gen : Byte) : Word :=
  wd (o * 16384 + tag.toNat * 4096 + reason * 256 + gen.toNat)

/-- REASON of a rejection code (R216). -/
def reasonOf (c : Word) : Nat :=
  if c = eRange then 1 else if c = eFenced then 2 else if c = eOwner then 3 else if c = eStale then 4
  else if c = eBusy then 5 else if c = eState then 6 else 0

/-- A DONE or NACK of slot k is recorded behind any that is not reported yet (R218), with its event flag. -/
def State.outcome (s : State) (k o : Nat) (tag : BitVec 2) (reason : Nat) (gen : Byte) : State :=
  let x := s.slot k
  let w := outcomeWord o tag reason gen
  let x := if x.unrep then { x with queue := x.queue ++ [w] } else { x with record := w, unrep := true }
  (s.setSlot k x).orReg (0x180D + 0x10 * (k / 4)) (if o = 1 then 1 else 2)

/-- LCPn_XGENm of slot k. -/
def xgenAddr (k : Nat) : Nat := 0x1804 + 0x10 * (k / 4) + k % 4

/-- The slots, 4p + m. -/
def slotKeys : List Nat := List.range 16

/-- Rail n changed GEN through a transition that the ports of `by_` did not issue: CHANGED, with the latest GEN, for every
enabled slot of another port that maps it (R217). The transition has no TAG, so that field is a free value. -/
def State.changed (s : State) (n : Nat) (by_ : Nat → Bool) : State :=
  slotKeys.foldl (fun s k =>
    if slotEnabled s k && slotRail s k == n && !by_ (k / 4) then
      let w := outcomeWord 3 (Config.freeTag s.fresh) 0 (s.unit n).gen
      ((s.setSlot k { s.slot k with changed := some w }).orReg (0x180D + 0x10 * (k / 4)) 0x40).tick
    else s) s

/-- The transitions of rail n in flight for slot k end with outcome o (R215): they leave the slot in their order. -/
def State.endFlight (s : State) (n o reason : Nat) (k : Nat) : State :=
  let x := s.slot k
  let ps := x.inflight.filter fun p => p.2 = n
  if ps.isEmpty then s
  else
    let s := s.setSlot k { x with inflight := x.inflight.filter fun p => p.2 ≠ n }
    ps.foldl (fun s p => s.outcome k o p.1 reason (s.unit n).gen) s

/-- A slot has a transition of rail n in flight. -/
def State.flies (s : State) (n k : Nat) : Bool := (s.slot k).inflight.any fun p => p.2 = n

/-- The transition of rail n in flight for a slot is preempted: NACK with the reason of E_STATE (R39, R215); the ports
whose transition it ends, and the one that issued what preempts it, get no CHANGED (R217), other ports do. -/
def State.preempted (s : State) (n : Nat) (by_ : Nat → Bool) : State :=
  let mine := slotKeys.filter fun k => s.flies n k
  let s := mine.foldl (fun s k => s.endFlight n 2 6 k) s
  s.changed n fun p => by_ p || (mine.any fun k => k / 4 == p)

/-- Rail n has completed its transition: DONE for the slot that issued it, whose expected generation follows
(R215, R221). A slot that has been mapped to another rail meanwhile takes the GEN of the rail whose transition it issued (DESIGN
CHOICE, log entry 61). -/
def State.completed (s : State) (n : Nat) : State :=
  slotKeys.foldl (fun s k => if s.flies n k then
    (s.endFlight n 1 0 k).setReg (xgenAddr k) (BitVec.setWidth 16 (s.unit n).gen) else s) s

-- what acts during a hush

/-- Register o of rail n as it acts: what was accepted during a hush takes effect only at the first period boundary after it
(R147). -/
def effReg (s : State) (n o : Nat) : Word :=
  match (s.rail n).eff with
  | some ws => ws.getD (o - 1) 0
  | none => s.reg (0x1000 + 0x40 * n + o)

/-- What acts on rail n when a transition makes its registers those of `new` (R147): during a hush it stays as it is in `old`.
Between a hush and the boundary that what was accepted during it waits for, the registers that the transition changes act at
once. -/
def heldEff (old new : State) (n : Nat) (x : Rail) : Rail :=
  let a := 0x1001 + 0x40 * n
  let was := (List.range 16).map fun i => old.reg (a + i)
  let kept (ws : List Word) : List Word :=
    (List.range 16).map fun i => if old.reg (a + i) = new.reg (a + i) then ws.getD i 0 else new.reg (a + i)
  { x with eff := if x.hushed then some (x.eff.getD was) else x.eff.map kept }

-- the cold stop

/-- The causes of a cold stop (SEQ_STOP_CAUSE.CAUSE). -/
abbrev causeRail : Nat := 1
abbrev causeThermal : Nat := 2
abbrev causeStopN : Nat := 3
abbrev causeFloor : Nat := 4
abbrev causeCommand : Nat := 5
abbrev causeOnfail : Nat := 6
abbrev causeReset : Nat := 7

/-- What a cold stop does to one rail or LDO (R122, R156, R277): one transition, OFF or, where it detected the fault or
already was there, FAULTED; a gang follower only goes off with its leader (R132, R282). -/
def stopRail (detected : Nat → Bool) (s : State) (k : Nat) : State :=
  let u := s.unit k
  let s := s.setOn k false
  let pgFell := 16 ≤ k && (s.ldo (k - 16)).pg
  let s := if k < 16 then s.setRail k { s.rail k with pg := false, hushed := false, ilim := 0, disch := true,
                                                      checked := false, tracking := false, after := none, eff := none }
    else s.setLdo (k - 16) { pg := false, ilim := false, disch := true }
  if u.code = 7 then s
  else
    let c : BitVec 4 := if detected k || u.code = 0xF then 0xF else 0
    let s := s.accept k srcStop fun u => { u with code := c, busy := false }
    let s := if k < 16 then
        (if c = u.code then s else if c = 0xF then s.orReg (railBase k + 0x11) 8 else s.orReg (railBase k + 0x11) 2)
      else
        let s := if pgFell then s.orReg (railBase k + 5) 2 else s
        if c = 0xF ∧ u.code ≠ 0xF then s.orReg (railBase k + 5) 4 else s
    if k < 16 then s.preempted k fun _ => false else s

/-- The cold stop (R189 to R193, R195, R198): every rail and LDO off, any table stopped, the cause recorded. STOP_N is
driven unless the stop came from STOP_N (R196), a stop frame asked for from a port with timing
unless it came from one (R489), and the ring's
alarm written where RING_CFG.ESTOP_TX is 1 (R461). -/
def coldStop (s : State) (cause : Nat) (rail : Nat) (detected : Nat → Bool) : State :=
  let s := railCodes.foldl (stopRail detected) s
  let ctrl := s.reg 0x1601
  let s := { s with
    seq := { s.seq with st := 6, waiting := false, retry := false, left := [], started := [], entered := false }
    stopN := if bit ctrl 0 && cause ≠ causeStopN then { s.stopN with drv := true } else s.stopN
    floor := { s.floor with stopReq := s.floor.stopReq || (bit ctrl 2 && s.floor.timed && cause ≠ causeFloor) }
    ring := if s.ring.live && bit (s.reg 0x4000) 0 && bit (s.reg 0x4000) 5 then
        { s.ring with estopTx := true, estopN := [] } else s.ring }
  s.setReg 0x1604 (wd (cause + 16 * rail))

/-- Every rail and LDO is off, by the cold stop of a detection of this timebase cycle: another detection of the cycle
adds no second stop (04_rails.md, "Corner cases"). -/
def stoppedNow (s : State) : Bool :=
  s.snap.isSome && railCodes.all fun k => (s.unit k).code == 0 || (s.unit k).code == 7 || (s.unit k).code == 0xF

/-- The cold stop of a detection by the rails of `detected`; what it found is kept for the detections of the same timebase
cycle (R152). -/
def detectStop (s : State) (rail : Nat) (detected : Nat → Bool) : State :=
  if stoppedNow s then s
  else { coldStop s causeRail rail detected with
         snap := some { units := s.units, rails := s.rails, ldos := s.ldos, regs := s.regs } }

-- what the collector notes of an occurrence

/-- Address of the record of class c (FLT_Cc_SRC). -/
def recAddr (c : Nat) : Nat := 0x0810 + 8 * c

/-- This start has written its RESET entry (R296): the collector takes occurrences and the log takes entries. -/
def logStarted (s : State) : Bool :=
  match s.boot.phase with
  | .load | .ready | .running | .testHold => s.boot.reset.isNone
  | _ => false

/-- Records and counts of a taken occurrence (R243, R246, R247; step 1 of R234). -/
def latchRecord (s : State) (o : Occ) (eff : Nat) (esc : Bool) : State :=
  let k := 256 * o.cls + o.src
  let f := s.flt k
  let event := match srcInfo o.cls o.src with
    | some i => !i.cond || o.inj
    | none => true
  let s := s.setFlt k { f with count := if f.count = 255 then 255 else f.count + 1, pend := true,
                               transient := f.transient || event || !f.present }
  let a := recAddr o.cls
  let head := wd (o.src + 256 * eff + flag esc 11)
  let s := if eff ≥ 1 ∧ ¬s.unack.getLsbD o.cls then
      let s := ((s.setReg a head).setReg (a + 1) (wd (o.det.toNat + 256 * o.gen.toNat)))
      let t := timeWords o.time
      let s := [0, 1, 2, 3].foldl (fun s i => s.setReg (a + 4 + i) (t.getD i 0)) s
      { s with unack := s.unack ||| (1#10 <<< o.cls) }
    else s
  let s := (s.setReg (a + 2) head).setReg (a + 3) (wd (satInc (s.reg (a + 3)).toNat 0xFFFF))
  if eff ≥ 5 then { s with errnHold := s.errnHold ||| (1#10 <<< o.cls) } else s

/-- The first two actions for an occurrence (R234): its record and counts, its FAULT entry, and right behind it the
COLD_STOP entry of the stop it caused (R293). -/
def noteOccurrence (s : State) (o : Occ) : State :=
  let eff := effLevel s o.cls o.src
  let esc := eff ≠ levelOf s o.cls o.src
  let s := latchRecord s o eff esc
  let unitWord := match o.unit with
    | some n => wd n
    | none => 0xFFFF
  let s := logPut s 0x01 o.inj
    [wd (256 * o.cls + o.src), wd (o.det.toNat + 256 * eff + flag esc 11), unitWord, BitVec.setWidth 16 o.gen]
  match o.stop with
  | some w => logPut s 0x02 false [w]
  | none => s

/-- SEQ_STOP_CAUSE of the cold stop that precedes a chip reset. -/
abbrev resetStopWord : Word := 0x01F7

/-- A cold stop that no occurrence of the collector logs: its entry follows at once (R193). -/
def coldStopLogged (s : State) (cause : Nat) : State :=
  let s := coldStop s cause 0x1F fun _ => false
  logPut s 0x02 false [s.reg 0x1604]

end Sys2Proof.Machine
end

