-- ==== Sys2Proof/Machine/RailOps.lean ====
section
/-! DEFINITION. Requests to rails and LDOs, whoever makes them (04_rails.md): the decision (R122, R156), what an
accepted request does, tracking starts, and the ends of transitions. -/

namespace Sys2Proof.Machine

open Sys2Proof

/-- OTP lock bits in force (R617, R630). -/
def otpLock (s : State) (i : Nat) : Bool := bit (s.reg 0x6001) i

/-- Kind of the proof that runs: 0 none, 1 memory, 2 logic (PROOF_ST.RUN). -/
def proofRun (s : State) : Nat := field (s.reg 0x6800) 1 0

/-- The address lies in a block that the running proof holds (R634). -/
def heldAddr (s : State) (a : Nat) : Bool :=
  match proofRun s with
  | 1 => (0x2000 ≤ a && a < 0x2400) || (0x3000 ≤ a && a < 0x4000) || (0x6000 ≤ a && a < 0x6800) ||
         (0x8000 ≤ a && a < 0xA000)
  | 2 => (0x2000 ≤ a && a < 0x2800) || (0x3000 ≤ a && a < 0x4000) || (0x5000 ≤ a && a < 0x5100) ||
         (0x6000 ≤ a && a < 0x6800)
  | _ => false

/-- The unit belongs to a block that the running proof holds: engines, converters and taps; SPH in a logic proof. -/
def heldUnit (s : State) (u : Nat) : Bool :=
  match proofRun s with
  | 1 => (0x038 ≤ u && u < 0x03C) || (0x04E ≤ u && u < 0x056) || 0x080 ≤ u
  | 2 => (0x038 ≤ u && u < 0x03C) || (0x04E ≤ u && u ≤ 0x056) || 0x080 ≤ u
  | _ => false

/-- Level of the STOP_N ball is low (GLB_SUP_ST.STOP_IN). -/
def stopLow (s : State) : Bool := s.stopN.drv || s.stopN.low

/-- Every switching rail and LDO is OFF. -/
def allRailsOff (s : State) : Bool := railCodes.all fun k => (s.unit k).code == 0

/-- EXTEST or HIGHZ is in effect (R643, R644). -/
def scanDrives (s : State) : Bool :=
  (s.jtag.ir == 0x0 || s.jtag.ir == 0x2) && s.boot.phase = .ready && allRailsOff s && !otpLock s 5

/-- The power-on table has been started since chip reset: until then every output is off (R82, R111, R61). -/
def tableStarted (s : State) : Bool := s.boot.phase = .running

/-- Every switch-on request from any path is rejected with E_STATE: STOP_N low with STOPN_IN (R186), DIE_SHUT present
(R238), and EXTEST or HIGHZ in effect (R643). The same answer is given before the power-on table starts, when R82 and R61
leave every output off (DEDUCED, log entry 22). -/
def switchOnBlocked (s : State) : Bool :=
  (bit (s.reg 0x1601) 1 && stopLow s) || s.present 2 1 || scanDrives s || !tableStarted s

-- tracking

/-- TRACK.MODE of rail n, and the rail its SRC names: the leader when SRC is a follower phase (R134). -/
def trackMode (s : State) (n : Nat) : Nat := field (s.reg (0x100C + 0x40 * n)) 1 0
def trackSrc (s : State) (n : Nat) : Nat := leaderOf s (field (s.reg (0x100C + 0x40 * n)) 7 4)

/-- A switch-on of rail n enters TRACK_WAIT: it tracks, and its source is OFF or TRACK_WAIT, or counts as OFF because
it entered STARTING through the same commit or step (R135, R136). -/
def waitsForSource (s : State) (countsOff : Nat → Bool) (n : Nat) : Bool :=
  n < 16 && trackMode s n ≠ 0 &&
    (let c := (s.unit (trackSrc s n)).code
     c == 0 || c == 1 || countsOff (trackSrc s n))

/-- Rails in TRACK_WAIT whose source is `n` enter STARTING at the moment it does, and theirs with them (R135). -/
def releaseWaiters : Nat → State → Nat → State
  | 0, s, _ => s
  | fuel + 1, s, n =>
    (List.range 16).foldl (fun s k =>
      if (s.unit k).code = 1 ∧ trackMode s k ≠ 0 ∧ trackSrc s k = n then
        releaseWaiters fuel ((s.setCode k 2).setRail k { s.rail k with checked := false, tracking := true }) k
      else s) s

/-- Rail n has entered STARTING. -/
def startWaiters (s : State) (n : Nat) : State := releaseWaiters 16 s n

-- ends of transitions

/-- The rail enters REGULATING: BUSY clears (R120), SWn_EVT.REG sets, the load port gets its DONE (R215). -/
def railRegulates (s : State) (n : Nat) : State :=
  ((s.arrive n 4).orReg (0x1011 + 0x40 * n) 1).completed n

/-- The rail enters OFF at the end of STOPPING (R120); active discharge follows where DISCH is 1. -/
def railStops (s : State) (n : Nat) : State :=
  let s := (s.arrive n 0).orReg (0x1011 + 0x40 * n) 2
  let s := s.setRail n { s.rail n with pg := false, tracking := false, disch := true }
  s.completed n

/-- The LDO (0 to 7) enters REGULATING on the first rise of PG (R158). -/
def ldoRegulates (s : State) (n : Nat) : State :=
  let s := (s.arrive (uLd n) 4).orReg (0x1405 + 0x20 * n) 1
  s.setLdo n { s.ldo n with pg := true }

/-- The LDO enters OFF at the end of STOPPING; with DISCH its pull-down holds the output (R156, R160). -/
def ldoStops (s : State) (n : Nat) : State :=
  let s := s.arrive (uLd n) 0
  s.setLdo n { s.ldo n with pg := false, ilim := false, disch := true }

-- requests

/-- A request to a rail or LDO. -/
inductive RailReq where
  | on
  | off
  | setv (code : Word)
  deriving DecidableEq, Repr

/-- Legal set-point codes of rail code k (R116, R155). -/
def vsetOk (k : Nat) (v : Word) : Bool :=
  if k < 16 then 3000 ≤ v.toNat && v.toNat ≤ 55000 else 5000 ≤ v.toNat && v.toNat ≤ 50000

/-- The request is allowed from the present state code (R122, R155, R156). -/
def railStateOk (s : State) (k : Nat) (q : RailReq) : Bool :=
  let c := (s.unit k).code
  match q with
  | .on => c == 0 && !switchOnBlocked s
  | .off => c == 4 || (k < 16 && c == 1)
  | .setv _ => c == 0 || (k < 16 && c == 4)

/-- The decision on a request to rail code k, in the order of R38. BUSY does not stop a switch-off in TRACK_WAIT
(R120). -/
def railCode (s : State) (k : Nat) (owns : Bool) (gen : Option Byte) (q : RailReq) : Word :=
  let u := s.unit k
  firstFail
    [ (match q with | .setv v => !vsetOk k v | _ => false, eRange),
      (!owns, eOwner),
      (match gen with | some g => g != u.gen | none => false, eStale),
      (u.busy && !(q = .off && k < 16 && u.code == 1), eBusy),
      (!railStateOk s k q, eState) ]

/-- The port whose slot issued a transition (R217). -/
def issuer (slot : Option (Nat × BitVec 2)) (p : Nat) : Bool :=
  match slot with
  | some (j, _) => j / 4 == p
  | none => false

/-- The slot that issued a transition of rail k owes its second stage (R215). -/
def takeOff (s : State) (k : Nat) (slot : Option (Nat × BitVec 2)) : State :=
  match slot with
  | some (j, tag) => s.setSlot j { s.slot j with inflight := (s.slot j).inflight ++ [(tag, k)] }
  | none => s

/-- A transition of rail k has been issued: the slot's second stage, and CHANGED for the other ports (R215, R217). -/
def issued (s : State) (k : Nat) (slot : Option (Nat × BitVec 2)) : State :=
  (takeOff s k slot).changed k (issuer slot)

/-- An accepted request to rail code k (R122, R156): one transition from `src`, for the load port slot that issued it,
if one did. A transition accepted during a hush takes effect after it (R147). Choices the manual leaves open:
a set-point request with the present code enters SLEWING all the same (log entry 23), and one accepted in OFF is recorded
DONE at once (log entry 24). -/
def railDo (s : State) (k : Nat) (src : BitVec 4) (slot : Option (Nat × BitVec 2)) (countsOff : Nat → Bool)
    (q : RailReq) : State :=
  if k < 16 then
    match q with
    | .on =>
      let c : BitVec 4 := if waitsForSource s countsOff k then 1 else 2
      let s := (s.accept k src fun u => { u with code := c, busy := true }).setOn k true
      let s := s.setRail k { s.rail k with disch := false, checked := false, tracking := c == 1 }
      let s := issued s k slot
      if c = 2 then startWaiters s k
      else if countsOff (trackSrc s k) then
        startWaiters ((s.setCode k 2).setRail k { s.rail k with checked := false, tracking := true }) k
      else s
    | .off =>
      if (s.unit k).code = 1 then
        let s := (s.accept k src fun u => { u with code := 0, busy := false }).setOn k false
        (takeOff ((s.preempted k (issuer slot)).orReg (0x1011 + 0x40 * k) 2) k slot).completed k
      else if (s.rail k).hushed then
        let s := s.setRail k { heldEff s s k (s.rail k) with after := some 6, oldV := s.reg (0x1002 + 0x40 * k) }
        issued ((s.accept k src fun u => { u with busy := true }).setOn k false) k slot
      else
        let s := (s.accept k src fun u => { u with code := 6, busy := true }).setOn k false
        issued (s.setRail k { s.rail k with pg := false, oldV := s.reg (0x1002 + 0x40 * k) }) k slot
    | .setv v =>
      let old := s.reg (0x1002 + 0x40 * k)
      let c := (s.unit k).code
      let t := s.setReg (0x1002 + 0x40 * k) v
      let s := t.setRail k (heldEff s t k (s.rail k))
      if c = 0 then
        (issued (s.accept k src fun u => u) k slot).completed k
      else
        let s := s.setRail k { s.rail k with oldV := old }
        if (s.rail k).hushed then
          let s := s.accept k src fun u => { u with busy := true }
          issued (s.setRail k { s.rail k with after := some 5 }) k slot
        else issued (s.accept k src fun u => { u with code := 5, busy := true }) k slot
  else
    let n := k - 16
    match q with
    | .on => ((s.accept k src fun u => { u with code := 2, busy := true }).setOn k true).setLdo n
        { s.ldo n with disch := false }
    | .off =>
      let s := (s.accept k src fun u => { u with code := 6, busy := true }).setOn k false
      -- PG reads 0 outside STARTING and REGULATING; its fall sets PGF and is no detection (R157, R159)
      let s := if (s.ldo n).pg then s.orReg (0x1405 + 0x20 * n) 2 else s
      s.setLdo n { s.ldo n with pg := false }
    | .setv v => (s.setReg (0x1402 + 0x20 * n) v).accept k src fun u => u

end Sys2Proof.Machine
end

