-- ==== Sys2Proof/Machine/RingCore.lean ====
section
/-! DEFINITION. What the ring's links and its time (12_device_ring.md) and the floor port's counters (13_floor_bus.md) show at
any moment, judged anew after each event that can change it. -/

namespace Sys2Proof.Machine

open Sys2Proof

/-- The ring runs: the island is out of reset and RING_CFG.EN is 1. -/
def ringOn (s : State) : Bool := s.ring.live && bit (s.reg 0x4000) 0

/-- Lane n carries cycles: UP or MUTED, and not fenced (R242, R435). -/
def laneCarries (s : State) (n : Nat) : Bool :=
  let u := s.unit (uLane n)
  !u.fenced && (u.code == 2 || u.code == 3)

/-- The receive lane of a ring: LANE0 for ring 0, LANE2 for ring 1 (R419); and its transmit lane. -/
def rxLane (ring1 : Bool) : Nat := if ring1 then 2 else 0
def txLane (ring1 : Bool) : Nat := if ring1 then 3 else 1

/-- A lane that breaks its link (R436). -/
def laneBroken (s : State) (n : Nat) : Bool :=
  let u := s.unit (uLane n)
  u.fenced || u.code == 4 || u.code == 3 || u.code == 0 || (u.code == 1 && (s.lane n).wasUp)

/-- A lane is good again (R437). -/
def laneGood (s : State) (n : Nat) : Bool :=
  let u := s.unit (uLane n)
  !u.fenced && u.code == 2 && (s.lane n).cnt < 96

def laneAddr (n o : Nat) : Nat := 0x4040 + 0x10 * n + o

/-- What LANEn_EVT records as a lane goes from one state code to another: LOS changed, MUTE entered, MUTE left. -/
def laneEvents (old new : BitVec 4) : Nat :=
  flag ((old == 4) != (new == 4)) 0 + flag (old != 3 && new == 3) 2 + flag (old == 3 && new != 3) 3

/-- A lane moves to a state code; such a move is no transition (R431). -/
def laneMove (s : State) (n : Nat) (c : BitVec 4) : State :=
  (s.setCode (uLane n) c).orReg (laneAddr n 8) (wd (laneEvents (s.unit (uLane n)).code c))

/-- A lane enters DOWN (R432). -/
def laneFalls (s : State) (n : Nat) : State :=
  let u := s.unit (uLane n)
  if !s.ring.live || u.fenced || !(u.code == 1 || u.code == 2 || u.code == 3) then s
  else (laneMove s n 4).condOn 4 n 0

/-- A transmit lane enters DOWN while its paired receive lane is DOWN, and when the neighbour has reported LOSREP for 4
cycles (R432). -/
def pairsFall (s : State) : State :=
  let s := if (s.unit (uLane 0)).code = 4 ∨ 4 ≤ s.ring.west.losRun then laneFalls s 3 else s
  if (s.unit (uLane 2)).code = 4 ∨ 4 ≤ s.ring.east.losRun then laneFalls s 1 else s

/-- The link at the west port (LANE0 and LANE3), and at the east port (LANE1 and LANE2). -/
def westBroken (s : State) : Bool := laneBroken s 0 || laneBroken s 3
def eastBroken (s : State) : Bool := laneBroken s 1 || laneBroken s 2

/-- This device's ID in force (GLB_DEVID, R69). -/
def ringSelf (s : State) : Byte := (s.reg 0x0040).setWidth 8

/-- This device is the elected master (RING_ST.TMASTER). -/
def ringMaster (s : State) : Bool := ringOn s && s.ring.master == some (ringSelf s)

/-- RING_ST.UP: a master is elected and at least one ring carries cycles. -/
def ringUpNow (s : State) : Bool := ringOn s && s.ring.master.isSome && (laneCarries s 0 || laneCarries s 2)

/-- RING_ST.WRAP: WRAP is received (R436). -/
def ringWrapNow (s : State) : Bool :=
  ringOn s && ((laneCarries s 0 && s.ring.west.wrap) || (laneCarries s 2 && s.ring.east.wrap))

/-- The upstream neighbour is on the east side: the lower HOPS, west on a tie (R442). -/
def upEast (s : State) : Bool :=
  match (if laneCarries s 0 then s.ring.west.hops else none), (if laneCarries s 2 then s.ring.east.hops else none) with
  | some w, some e => decide (e.toNat < w.toNat)
  | none, some _ => true
  | _, none => false

/-- The upstream side's last beacon, where there is one. -/
def upSide (s : State) : Option SideRx :=
  let r := if upEast s then s.ring.east else s.ring.west
  if laneCarries s (rxLane (upEast s)) && r.hops.isSome then some r else none

/-- RING_ST.HOPS (R442); the master is no hop from itself. -/
def ringHops (s : State) : Byte :=
  if ringMaster s then 0
  else match upSide s with
  | some r => r.hops.getD 0 + 1
  | none => 0

/-- RING_ST.TIME_OK (R446). -/
def ringTimeOk (s : State) : Bool :=
  if ringMaster s then bit (s.reg 0x5891) 0 && bit (s.reg 0x5890) 0
  else (match upSide s with
    | some r => r.tvalid
    | none => false) && 16 ≤ s.ring.okRun

/-- The port follows ring time (R470, FLR_ST.RINGT). -/
def floorRing (s : State) : Bool := bit (s.reg 0x4800) 3 && ringTimeOk s

/-- The current cycle number: that of device time while the port follows ring time (R470). -/
def floorCycle (s : State) : BitVec 32 :=
  if floorRing s then BitVec.ofNat 32 (s.now.toNat * 100 / 4294967296) else s.floor.cyc

/-- While the port follows ring time, its cycle number is that of device time and no holdover is counted (R470, R482; "What if
the ring comes up during holdover?"). -/
def floorSync (s : State) : State :=
  if floorRing s then { s with floor := { s.floor with cyc := floorCycle s, hold := 0 } } else s

/-- What the last cycles of a side brought, once its receive lane brings none: nothing but the count of cycles (R432, R438,
R442). -/
def SideRx.ended (r : SideRx) : SideRx := { cyc := r.cyc, slice := r.slice }

/-- What a ring that brings no cycles leaves: nothing heard within the last 16 cycles, no run of beacons, no cycle that waits for
a lane that carries none, and no knowing which of its containers comes round next (R430, R438, R463). -/
def ringQuiet (s : State) : State :=
  let on := ringOn s
  let rx := on && (laneCarries s 0 || laneCarries s 2)
  let g := s.ring
  let held := if on && laneCarries s 1 then g.held else mset dHeld g.held 0 []
  let due := if on && laneCarries s 0 then g.due else mset dDue g.due 0 none
  { s with ring := { g with
      west := if on && laneCarries s 0 then g.west else g.west.ended
      east := if on && laneCarries s 2 then g.east else g.east.ended
      age := if rx then g.age else [], cands := if rx then g.cands else []
      held := if on && laneCarries s 3 then held else mset dHeld held 1 []
      due := if on && laneCarries s 2 then due else mset dDue due 1 none
      relayed := if ringMaster s then g.relayed else 0 } }

/-- After an event (R432, R436, R437, R439, R440, R446): lanes that fall with their pair, the change flags of UP and WRAP, which
turns the way that containers take, the WRAP and lane conditions, the loops beside a broken link and the good cycles of a link,
which a break ends, and TIME_LOSS and PPS_LOSS as they are now. -/
def ringJudge (s : State) : State :=
  let s := ringQuiet (pairsFall s)
  let s := [0, 1, 2, 3].foldl (fun s n => if (s.unit (uLane n)).code = 4 then s else s.condOff 4 n) s
  let up := ringUpNow s
  let wrap := ringWrapNow s
  let s := if s.ring.up == up then s else s.orReg 0x4008 1
  let s := if s.ring.wrap == wrap then s else s.orReg 0x4008 2
  let on := ringOn s
  let s := { s with ring := { s.ring with
    up := up, wrap := wrap
    due := if s.ring.wrap == wrap then s.ring.due else []
    badRun := if up && !ringTimeOk s then s.ring.badRun else 0
    goodW := if laneGood s 0 && laneGood s 3 then s.ring.goodW else 0
    goodE := if laneGood s 1 && laneGood s 2 then s.ring.goodE else 0
    loopW := on && (s.ring.loopW || westBroken s), loopE := on && (s.ring.loopE || eastBroken s) } }
  let s := (s.condSet 4 8 0 wrap).condSet 4 9 0 (s.ring.lost || 1000000 < s.ring.badRun)
  floorSync (if ringMaster s && bit (s.reg 0x4000) 3 then s else s.condOff 9 2)

/-- Live registers that a block reset keeps (R242): XGEN of a load port; the error counters of the floor port, the
outcome records and the handles and buffers of taps are no registers of this map. -/
def keptOverBlock (a : Nat) : Bool :=
  (0x1800 ≤ a && a < 0x1840 && 4 ≤ a % 0x10 && a % 0x10 ≤ 7)

/-- The unit's live registers at their reset values; staged fields keep their committed values (R240). -/
def resetRegs (s : State) (n : Nat) : State :=
  { s with regs := s.regs.filter fun p => unitOfAddr p.1 ≠ some n || (regInfo p.1).acc == .rws || keptOverBlock p.1 }

/-- The ring island enters reset (R66, R431): every lane reads OFF and the ring's state is its reset state; requests wait
for their time limit. -/
def ringDown (s : State) : State :=
  -- a block reset of a lane is over with it
  let s := [0, 1, 2, 3].foldl (fun s n =>
    let s := if (s.unit (uLane n)).code = 0xE then (resetRegs s (uLane n)).arrive (uLane n) 0 else s
    laneMove s n 0) s
  let g := s.ring
  let s := { s with ring := { live := false, up := g.up, wrap := g.wrap, pend := g.pend, reqNo := g.reqNo,
                              tx := g.tx.map (fun b : TxBlock => { b with frag := 0 }), tset := g.tset,
                              streams := g.streams, wrote := g.wrote } }
  ringJudge ((s.condOff 4 9).condOff 4 0xA)

/-- FLR_ST.WARN and PASSIVE (R484). -/
def floorWarn (s : State) : Bool := 96 ≤ s.floor.tx || 96 ≤ s.floor.rx
def floorPassive (s : State) : Bool := 128 ≤ s.floor.tx || 128 ≤ s.floor.rx

/-- The floor port's counters and mutes judged: its conditions, FLR_EVT.MUTECHG, and ACTIVE or MUTED for a port with timing
(R482, R484). -/
def floorJudge (s : State) : State :=
  let f := s.floor
  let cm := 256 ≤ f.tx || (f.cntMute && 96 ≤ f.tx)
  let mute := cm || f.holdMute
  let s := { s with floor := { f with cntMute := cm, mute := mute } }
  let s := if mute == f.mute then s else s.orReg 0x4812 0x100
  let s := ((s.condSet 5 1 0 (floorWarn s)).condSet 5 2 0 (floorPassive s)).condSet 5 3 0 mute
  let c := (s.unit uFloor).code
  if c = 2 ∨ c = 3 then s.setCode uFloor (if mute then 3 else 2) else s

/-- The device is present on the floor bus (R491). -/
def floorPresent (s : State) (k : Nat) : Bool := mget dAge s.floor.age k < 16

/-- FLR_EVT.LOSS for devices that stop being present, where one of them is watched (R492). -/
def floorLoss (s : State) (gone : List Nat) : State :=
  if gone.any fun k => bit (s.reg (0x4840 + k / 16)) (k % 16) then s.orReg 0x4812 4 else s

/-- The floor port loses its slot timing, and with it every device that was present. -/
def floorUntime (s : State) : State :=
  let s := floorLoss s ((List.range 256).filter fun k => floorPresent s k)
  floorJudge { s with floor := s.floor.untimed }

/-- The floor port is disabled, enabled or reset: nothing of its bus stays but its counters. -/
def floorFresh (s : State) : State :=
  (floorUntime ({ s with floor := { s.floor with dup := false } }.condOff 5 5)).condOff 5 0

end Sys2Proof.Machine
end

