-- ==== Sys2Proof/Machine/TapOps.lean ====
section
/-! DEFINITION. The buffer pool, the blocks of taps, and the samples that converters give them
(11_taps_and_measurement.md). -/

namespace Sys2Proof.Machine

open Sys2Proof

-- the pool (R410 to R412)

def rsv (s : State) (k : Nat) : Nat := (s.reg (0x3028 + k)).toNat
def heldRes (s : State) (k : Nat) : Nat := mget dNat s.mea.heldR k
def heldShr (s : State) (k : Nat) : Nat := mget dNat s.mea.heldS k
/-- Blocks that account k holds (MEA_HELDk). -/
def heldBy (s : State) (k : Nat) : Nat := heldRes s k + heldShr s k

def sumAcct (f : Nat → Nat) : Nat := ((List.range 10).map f).foldl (· + ·) 0

/-- MEA_POOL_FREE: free blocks of 1024. -/
def poolFree (s : State) : Nat := 1024 - sumAcct (heldBy s)

/-- MEA_POOL_SHFREE: free blocks of the shared remainder; what accounts hold beyond a lowered reservation is not
free. -/
def poolShFree (s : State) : Nat :=
  1024 - sumAcct (fun k => max (rsv s k) (heldRes s k)) - sumAcct (heldShr s)

/-- One block for account k (R411): from its reservation while it holds fewer than that, else from the shared
remainder; whether it came from the reservation, and the pool after. -/
def allocBlock (s : State) (k : Nat) : Option (Bool × State) :=
  if poolFree s = 0 then none
  else if heldBy s k < rsv s k then
    some (true, { s with mea := { s.mea with heldR := mset dNat s.mea.heldR k (heldRes s k + 1) } })
  else if poolShFree s > 0 then
    some (false, { s with mea := { s.mea with heldS := mset dNat s.mea.heldS k (heldShr s k + 1) } })
  else none

/-- A block of account k goes back to the part it came from (R411). -/
def freeBlock (s : State) (k : Nat) (resv : Bool) : State :=
  if resv then { s with mea := { s.mea with heldR := mset dNat s.mea.heldR k (heldRes s k - 1) } }
  else { s with mea := { s.mea with heldS := mset dNat s.mea.heldS k (heldShr s k - 1) } }

def freeBlocks (s : State) (k : Nat) (bs : List Block) : State := bs.foldl (fun s b => freeBlock s k b.resv) s

/-- A block request was refused (MEA_EVT.EXHAUST). -/
def refused (s : State) : State := s.orReg 0x3023 1

-- converters

/-- The open taps bound to converter c, by index. -/
def boundTaps (s : State) (c : Nat) : List (Nat × Tap) :=
  s.mea.taps.filterMap fun p => match p.2 with
    | some t => if t.conv = c then some (p.1, t) else none
    | none => none

/-- A sorted list without repeats. -/
def insertSrc (x : Byte) : List Byte → List Byte
  | [] => [x]
  | y :: ys => if x.toNat < y.toNat then x :: y :: ys else if x = y then y :: ys else y :: insertSrc x ys

/-- The distinct sources of converter c, in ascending code (R383). -/
def convSources (s : State) (c : Nat) : List Byte := (boundTaps s c).foldl (fun l p => insertSrc p.2.src l) []

/-- Multiplexed mode: two or more distinct sources, or any hushed tap (R383). -/
def convMuxed (s : State) (c : Nat) : Bool :=
  (convSources s c).length ≥ 2 || (boundTaps s c).any fun p => p.2.hush

def mcCfg (s : State) (c : Nat) : Word := s.reg (0x3000 + 4 * c)
def mcRate (s : State) (c : Nat) : Nat := (s.reg (0x3001 + 4 * c)).toNat
def mcOrder (s : State) (c : Nat) : Nat := if bit (mcCfg s c) 2 then 5 else 3

/-- Conversion periods from one sample of a source to its next (R383), with n distinct sources. -/
def samplePeriods (muxed : Bool) (n order : Nat) : Nat := if muxed then n * (order + 1) else 1

/-- The same for the taps bound to converter c and its committed filter. -/
def periodsPerSample (s : State) (c : Nat) : Nat := samplePeriods (convMuxed s c) (convSources s c).length (mcOrder s c)

/-- Converter c as it is in effect (R387). -/
def State.conv (s : State) (c : Nat) : Conv := mget dConv s.mea.convs c
def State.setConv (s : State) (c : Nat) (x : Conv) : State := { s with mea := { s.mea with convs := mset dConv s.mea.convs c x } }

/-- Order of the filter in effect. -/
def Conv.order (x : Conv) : Nat := if bit x.cfg 2 then 5 else 3

/-- Source of the conversion in progress. -/
def Conv.source (x : Conv) : Option Byte := x.srcs[x.slot]?

/-- Periods from the binding of a source to its first sample: ORDER in continuous mode, the ORDER + 1 of its slot in
multiplexed mode (R383). -/
def Conv.firstPeriods (x : Conv) : Nat := if x.muxed then x.order + 1 else x.order

/-- The rail that a hush for a source is asked of: a gang's leader (R143, R400). -/
def hushRail (s : State) (src : Byte) : Nat := leaderOf s (src.toNat % 16)

/-- The rail accepts a hush request (R142). -/
def hushAccepts (s : State) (n : Nat) : Bool := (s.unit n).code == 4 && bit (effReg s n 1) 6

/-- Some converter waits for a hush of rail n. -/
def hushAsked (s : State) (n : Nat) : Bool := (List.range 8).any fun c => (s.conv c).hush == .asked && (s.conv c).rail == n

/-- The conversions that stand at `a` with rail n go to `b`. -/
def hushMarks (s : State) (n : Nat) (a b : ConvHush) : State :=
  (List.range 8).foldl (fun s c =>
    let x := s.conv c
    if x.hush = a ∧ x.rail = n then s.setConv c { x with hush := b } else s) s

/-- A conversion of converter c starts; for a source with a hushed tap, the converter requests a hush of the rail first, which
the rail may refuse (R401, R402). -/
def slotStart (s : State) (c : Nat) : State :=
  let x := s.conv c
  match x.source with
  | none => s
  | some src =>
    let n := hushRail s src
    let wants := (boundTaps s c).any fun p => p.2.hush && p.2.src == src
    s.setConv c { x with hush := if !wants then .unasked else if hushAccepts s n then .asked else .unhushed, rail := n }

/-- Converter c takes over its committed settings and the sources of its taps (R387); the first conversion is of the lowest
source (DESIGN CHOICE, log entry 41). -/
def convTake (s : State) (c : Nat) : State :=
  slotStart (s.setConv c { cfg := mcCfg s c &&& 6, rate := s.reg (0x3001 + 4 * c), srcs := convSources s c,
                           muxed := convMuxed s c }) c

/-- What converter c would take over now differs from what is in effect (R387). -/
def convMoved (s : State) (c : Nat) : Bool :=
  let x := s.conv c
  x.cfg != mcCfg s c &&& 6 || x.rate != s.reg (0x3001 + 4 * c) || x.srcs != convSources s c || x.muxed != convMuxed s c

/-- State code of an enabled converter: RUNNING with a tap bound, else IDLE (R381). -/
def convCode (s : State) (c : Nat) : BitVec 4 :=
  if !bit (mcCfg s c) 0 then 0 else if (boundTaps s c).isEmpty then 1 else 2

/-- A converter that is RUNNING begins to convert, and one that is not stops (R381, R383). -/
def convServe (s : State) (c : Nat) : State :=
  if (s.unit (uMc c)).code = 2 then (if (s.conv c).srcs = [] then convTake s c else s) else s.setConv c {}

/-- IDLE and RUNNING follow the taps; that is no transition (R381). -/
def convFollow (s : State) (c : Nat) : State :=
  let u := s.unit (uMc c)
  if u.fenced || u.code = 0 || u.code = 0xE then s else convServe (s.setCode (uMc c) (convCode s c)) c

/-- A period of RATE x 10 S/s (R382): RATE times so many timebase cycles. -/
abbrev periodAcc : Nat := 2500000

-- blocks

/-- A block as its 64 words (R403). -/
def Block.words (b : Block) : List Word :=
  let n := if b.form then b.data.length / 2 else b.data.length
  let w1 := n + flag b.form 8 + flag b.gap 9 + flag b.nh 10 + flag b.first 11 + flag b.refInt 12
  [b.handle, wd w1, b.seq, b.lost] ++ timeWords b.stamp ++
    [b.spacing.setWidth 16, (b.spacing >>> 16).setWidth 16] ++ (b.data ++ List.replicate 54 0).take 54

/-- The collector stores a block from account 9 in the queue of its stream, or drops it (R415, R416). -/
def collect (s : State) (dev : Byte) (b : Block) : State :=
  let q := s.mea.colq.find? fun q => q.dev = dev && q.handle = b.handle
  let n := if b.form then b.data.length / 2 else b.data.length
  let drop (s : State) : State :=
    let more (l : Word) : Word := wd (min 65535 (l.toNat + b.lost.toNat + n))
    let qs := match q with
      | some q' => s.mea.colq.map fun x =>
          if x.dev = dev && x.handle = b.handle then { q' with gap := true, lost := more q'.lost } else x
      | none => s.mea.colq ++ [{ dev := dev, handle := b.handle, blocks := [], gap := true, lost := more 0 }]
    ({ s with mea := { s.mea with colq := qs } }).orReg 0x3023 4
  let len := match q with
    | some q' => q'.blocks.length
    | none => 0
  if len ≥ 64 || proofRun s ≠ 0 then drop s
  else match allocBlock s 9 with
  | none => drop (refused s)
  | some (resv, s) =>
    match q with
    | some q' =>
      let b := { b with gap := b.gap || q'.gap, lost := wd (min 65535 (b.lost.toNat + q'.lost.toNat)), resv := resv }
      { s with mea := { s.mea with colq := s.mea.colq.map fun x =>
          if x.dev = dev && x.handle = b.handle then { q' with blocks := q'.blocks ++ [b], gap := false, lost := 0 }
          else x } }
    | none =>
      { s with mea := { s.mea with colq := s.mea.colq ++
          [{ dev := dev, handle := b.handle, blocks := [{ b with resv := resv }], gap := false, lost := 0 }] } }

/-- This device's ID in force (GLB_DEVID, R69). -/
def devId (s : State) : Byte := (s.reg 0x0040).setWidth 8

/-- The current block of tap i closes (R405): an empty one is discarded, so nothing is queued and the tap fills it again;
otherwise it takes the next block sequence number and goes to its queue, or to this device's own collector queue
(R415). -/
def closeBlock (s : State) (i : Nat) : State :=
  match s.tap i with
  | none => s
  | some t =>
    match t.cur with
    | none => s
    | some b =>
      if b.data.isEmpty then s
      else
        let b := { b with seq := t.seq }
        let t := { t with cur := none, seq := t.seq + 1 }
        if t.dest = 1 ∧ t.arg4.setWidth 8 = devId s then
          collect (freeBlock (s.setTap i (some t)) t.acct b.resv) (devId s) b
        else s.setTap i (some { t with queue := t.queue ++ [b] })

/-- The next sample of tap i carries GAP; its current block closes before it (R405, R406). -/
def gapTap (s : State) (i : Nat) : State :=
  match s.tap i with
  | none => s
  | some t => s.setTap i (some { t with gapNext := true })

/-- A change under R387 at converter c: the current block of every tap bound to it closes, and each next sample
carries GAP. -/
def convChanged (s : State) (c : Nat) : State :=
  (boundTaps s c).foldl (fun s p => gapTap (closeBlock s p.1) p.1) s

/-- What has changed takes effect at a period boundary, where the current block of every bound tap closes and each next sample
carries GAP (R387, R406). -/
def convApply (s : State) (c : Nat) : State := convTake (convChanged s c) c

/-- One timebase cycle of converter c: the boundary of a period that falls in it within a longer conversion, a hush wait or the
settling; there a change takes effect, and the conversion in progress is given up (R382, R387). -/
def convTick (s : State) (c : Nat) : State :=
  let x := s.conv c
  let u := s.unit (uMc c)
  if u.code ≠ 2 ∨ u.fenced then s
  else
    let n := x.acc + x.rate.toNat
    let t := s.setConv c { x with acc := n % periodAcc }
    if periodAcc ≤ n ∧ convMoved s c then convApply t c else t

-- samples

/-- The reference in use, in units of 10 nV: MEA_EXTREF, or the calibrated internal reference of the bank in use
(R391, R619, R620). -/
def refTenNv (s : State) (c : Nat) : Nat :=
  if bit (s.conv c).cfg 1 then
    (calWord s 2).toNat + 65536 * (calWord s 3).toNat
  else (s.pair 0x3020).toNat * 100

/-- A quotient rounded down, or up where the division leaves a remainder and the free value says so: the manual states
no rounding of telemetry samples. -/
def roundFree (up : Bool) (num den : Int) : Int :=
  let q := Int.fdiv num den
  if up && Int.fmod num den ≠ 0 then q + 1 else q

/-- Saturation at the ends of a word's range (R391). -/
def satU (x : Int) : Word := if x < 0 then 0 else if x > 65535 then 0xFFFF else BitVec.ofInt 16 x
def satS (x : Int) : Word := if x < -32768 then 0x8000 else if x > 32767 then 0x7FFF else BitVec.ofInt 16 x

/-- The telemetry form of a precision sample, or of the die temperature (R388, R390, R391, R118). -/
def telemetry (s : State) (c : Nat) (src : Byte) (prec : BitVec 32) (dieT : Int) : Word :=
  let n := src.toNat
  let up := Config.freeRoundUp s.fresh
  -- input in units of 10 nV / 2^24
  let v : Int := prec.toInt * (refTenNv s c : Int)
  let one : Int := 16777216
  if n < 0x10 ∨ (0x30 ≤ n ∧ n < 0x58) then satU (roundFree up v (one * 10000))
  else if n < 0x20 then
    let ofs : Int := (effReg s (n - 0x10) 0x0B).toNat * 100000
    satS (roundFree up ((v - ofs * one) * 100) (one * 100 * ((effReg s (n - 0x10) 0x0A).toNat : Int)))
  else if n < 0x30 then satS (roundFree up ((v - 60000000 * one) * 16) (one * 800000))
  else if n = 0x59 then satU (roundFree up v (one * 100000))
  else satS (roundFree up (dieT * 16) 65536)

/-- The calibration of converter c's attenuators: a result without it, times the bank's gain, plus the bank's offset, rounded to
a whole number; a free value where that fits no 32 bits (R390, R619). The manual states neither the formula nor the rounding
(DESIGN CHOICE, log entry 54). -/
def calibrated (s : State) (c : Nat) (raw : BitVec 32) : BitVec 32 :=
  let gain : Int := 10000000 + sgn (calWord s (4 + c))
  let ref : Int := refTenNv s c
  let x := roundFree (Config.freeRoundUp (s.fresh + 1)) (raw.toInt * gain * ref + sgn (calWord s (12 + c)) * 10 * 16777216 * 10000000)
    (10000000 * ref)
  if ref ≠ 0 ∧ -2147483648 ≤ x ∧ x ≤ 2147483647 then BitVec.ofInt 32 x else Config.freeOffset s.fresh

/-- The words of one sample in a tap's form (R390, R391). -/
def sampleWords (s : State) (t : Tap) (x : Sample) : List Word :=
  let prec := calibrated s t.conv x.raw
  if t.form then [prec.setWidth 16, (prec >>> 16).setWidth 16] else [telemetry s t.conv t.src prec x.dieT]

/-- Nominal sample spacing in units of 2^-32 s, rounded to nearest, with the settings in effect (R403); one of 1 s or more, which
W8 and W9 cannot hold, is a free value (log entry 5). -/
def spacing (s : State) (t : Tap) (div : Nat) : BitVec 32 :=
  let x := s.conv t.conv
  let num := div * samplePeriods x.muxed x.srcs.length x.order * 4294967296
  let den := x.rate.toNat * 10
  let n := (2 * num + den) / (2 * den)
  if n < 4294967296 then BitVec.ofNat 32 n else Config.freeSpacing s.fresh

/-- The first block of a tap, before its first sample (R393), or the next one after a full block. -/
def emptyBlock (s : State) (i : Nat) (t : Tap) (resv : Bool) : Block :=
  { handle := wd ((mget dGen9 s.mea.gen i).toNat * 128 + i), form := t.form, gap := false, nh := false, first := t.firstNext,
    refInt := false, seq := t.seq, lost := 0, stamp := 0, spacing := 0, data := [], resv := resv }

/-- A tap whose block has just filled requests the next one at once (11_taps_and_measurement.md, "Corner cases"; DEDUCED, log
entry 42); where it gets none, its next sample asks again (R407, R408). -/
def nextBlock (s : State) (i : Nat) : State :=
  match s.tap i with
  | none => s
  | some t =>
    if t.cur.isSome || (t.dest = 0 && t.queue.length ≥ t.arg4.toNat) then s
    else match allocBlock s t.acct with
    | none => refused s
    | some (resv, s) => s.setTap i (some { t with cur := some (emptyBlock s i t resv) })

/-- A tap loses a sample: it is STALLED, and its next sample carries GAP (R406, R407). -/
def loseSample (s : State) (i : Nat) (t : Tap) : State :=
  (s.setTap i (some { t with lost := wd (satInc t.lost.toNat 65535), lostAll := wd (satInc t.lostAll.toNat 65535),
                             gapNext := true })).setCode (uTap i) 3

/-- Samples that fill a block: 54 telemetry or 27 precision samples (R403). -/
def blockFull (b : Block) : Bool := b.data.length ≥ 54

/-- Tap i takes a sample into its block (R403, R405, R407, R408), `nh` where R402 made it unhushed; `stamp` is the device time
of the conversion's end. -/
def blockSample (s : State) (i : Nat) (x : Sample) (nh : Bool) (stamp : BitVec 64) : State :=
  let needClose := match s.tap i with
    | some t => match t.cur with
      | some b => blockFull b || b.nh != nh || t.gapNext
      | none => false
    | none => false
  let s := if needClose then closeBlock s i else s
  match s.tap i with
  | none => s
  | some t =>
    -- the header of a block is that of its first sample (R403)
    let fresh (resv : Bool) : Block :=
      { handle := wd ((mget dGen9 s.mea.gen i).toNat * 128 + i), form := t.form, gap := t.gapNext, nh := nh,
        first := t.firstNext, refInt := bit (s.conv t.conv).cfg 1, seq := t.seq, lost := t.lost,
        stamp := stamp, spacing := spacing s t t.every.toNat, data := [], resv := resv }
    let put (s : State) (t : Tap) (b : Block) : State :=
      let b := { b with data := b.data ++ sampleWords s t x }
      let s := (s.setTap i (some { t with cur := some b, gapNext := false, firstNext := false, lost := 0 })).setCode
        (uTap i) 2
      if blockFull b then nextBlock (closeBlock s i) i else s
    match t.cur with
    | some b => put s t (if b.data.isEmpty then fresh b.resv else b)
    | none =>
      if t.dest = 0 ∧ t.queue.length ≥ t.arg4.toNat then loseSample s i t
      else match allocBlock s t.acct with
      | none => loseSample (refused s) i t
      | some (resv, s) =>
        put s t (fresh resv)

/-- Tap i writes a sample and its status word to recipe SRAM and rings its doorbell (R409). The first sample after an open has counter
1 (DESIGN CHOICE, log entry 79). -/
def engineSample (s : State) (i : Nat) (t : Tap) (x : Sample) (nh : Bool) : State :=
  let ws := sampleWords s t x
  let count := t.count + 1
  let st := wd (count.toNat + flag t.gapNext 8 + flag nh 9)
  let a := t.arg4.toNat - 0x8000
  let s := (ws ++ [st]).foldl (fun (p : State × Nat) w => (p.1.setSram p.2 w, p.2 + 1)) (s, a) |>.1
  let s := (s.setTap i (some { t with gapNext := false, firstNext := false, count := count })).setCode (uTap i) 2
  if t.arg5 = 0xFFFF then s else { s with irq := s.irq.ring t.arg5.toNat }

/-- One result of its converter for tap i: every DIV-th, counting from the first after the tap was opened (R385; the DIV-th
itself is the first taken: DESIGN CHOICE, log entry 43). A fenced tap takes none (R242). While a memory proof holds the pool and
recipe SRAM a tap loses its samples (R386, R634). A conversion that R402 makes unhushed marks the block of every tap that takes its
sample. -/
def tapSample (s : State) (i : Nat) (x : Sample) (stamp : BitVec 64) : State :=
  match s.tap i with
  | none => s
  | some t =>
    if t.src ≠ x.src then s
    else if t.skip > 1 then s.setTap i (some { t with skip := t.skip - 1 })
    else
      let t := { t with skip := t.every.toNat }
      let s := s.setTap i (some t)
      let h := (s.conv t.conv).hush
      let nh := h == .unhushed || (t.hush && h != .hushed)
      if (s.unit (uTap i)).fenced then s
      else if proofRun s ≠ 0 then loseSample s i t
      else if t.dest = 2 then engineSample s i t x nh
      else blockSample s i x nh stamp

end Sys2Proof.Machine
end

