-- ==== Sys2Proof/Machine/Draught.lean ====
section
/-! DEFINITION. The draught: ranges of single fields, staged entries, commits and aborts
(08_commits_recovery_and_cellar.md), with what a commit does to each kind of unit. -/

namespace Sys2Proof.Machine

open Sys2Proof

-- last-error registers

/-- The final code of a remote request is recorded as a rejected access is (R50; 12_device_ring.md, "Corner cases"). -/
def noteCode (s : State) (r : Req) (c : Word) : State :=
  if c = eOk then s else s.setReq r { s.req r with lasterr := c }

-- ranges of a field alone

def within (x lo hi : Nat) : Bool := lo ≤ x && x ≤ hi
def signedWithin (x : Int) (lo hi : Int) : Bool := lo ≤ x && x ≤ hi

/-- Ranges of the switching controller registers by offset, for controller n (04_rails.md, "Registers"). -/
def swRange (n o : Nat) (w : Word) : Bool :=
  let v := w.toNat
  match o with
  | 0x01 => field w 2 1 ≠ 3 && n % 4 + field w 4 3 ≤ 3
  | 0x02 => within v 3000 55000
  | 0x03 => 1 ≤ v
  | 0x04 => within v 100 1000
  | 0x06 => 1 ≤ field w 7 0 && 1 ≤ field w 15 8
  | 0x07 => 1 ≤ field w 7 0
  | 0x08 => 1 ≤ v
  | 0x09 => 1 ≤ v
  | 0x0A => 1000 ≤ v
  | 0x0B => v ≤ 2000
  | 0x0C => field w 1 0 ≠ 3 && 1 ≤ field w 15 8
  | 0x0E => within v 1 4000
  | 0x0F => 1 ≤ v
  | 0x10 => within v 25 150
  | _ => true

/-- Ranges of the charger registers (14_charger_and_power_path.md, "Registers"). -/
def chgRange (a : Nat) (w : Word) : Bool :=
  let v := w.toNat
  match a with
  | 0x1A01 => field w 9 8 ≤ 1
  | 0x1A02 => within v 10 400
  | 0x1A03 | 0x1A04 => within v 1 100
  | 0x1A05 => v ≤ 50
  | 0x1A06 => field w 4 0 ≤ 30 && within (field w 11 8) 1 8
  | 0x1A07 => within v 1 60
  | 0x1A08 => 1 ≤ field w 7 0 && 1 ≤ field w 15 8
  | 0x1A09 => 1 ≤ v
  | 0x1A0A => signedWithin (w.setWidth 8).toInt (-20) 20 && within (field w 15 8) 35 60
  | 0x1A0B => within v 4500 28000
  | 0x1A0C => 1 ≤ field w 7 0 && 1 ≤ field w 11 8
  | 0x1A0D => within v 50 1000
  | 0x1A0E => within v 2000 6000
  | 0x1A0F => within v 1100 1400
  | 0x1A10 => within v 800 1200
  | _ => true

/-- Days of a calendar month; every fourth year from 2000 is a leap year (17_timers_and_rtc.md, R602). -/
def monthDays (year mon : Nat) : Nat :=
  match mon with
  | 2 => if year % 4 = 0 then 29 else 28
  | 4 | 6 | 9 | 11 => 30
  | _ => 31

/-- Ranges of a written word that its own field table gives (check 4 of R38), for every register. -/
def rangeOk (a : Nat) (w : Word) : Bool :=
  let v := w.toNat
  if 0x1000 ≤ a ∧ a < 0x1400 then swRange ((a - 0x1000) / 0x40) ((a - 0x1000) % 0x40) w
  else if a < 0x1400 then
    match a with
    | 0x0002 => v = 0xA5C3
    | 0x0010 | 0x0011 | 0x0012 | 0x0013 | 0x0014 | 0x0015 => v = 0
    | 0x0805 => within v 40 120
    | 0x0808 => (srcInfo (field w 11 8) (field w 7 0)).isSome
    | 0x0809 => v ≠ 7
    | _ => true
  else if a < 0x1500 then
    match (a - 0x1400) % 0x20 with
    | 2 => within v 5000 50000
    | 3 | 4 => 1 ≤ v
    | _ => true
  else if a < 0x1600 then
    match (a - 0x1500) % 8 with
    | 1 => field w 6 2 < 0x18 || field w 6 2 = 0x1F
    | _ => true
  else if a < 0x1800 then
    match a with
    | 0x1601 => 1 ≤ field w 15 8
    | 0x1610 => field w 6 0 < 96
    | _ => true
  else if a < 0x1A00 then
    match (a - 0x1800) % 0x10 with
    | 0x1 => 8 ≤ field w 15 8
    | 0xC => v = 0
    | _ => true
  else if a < 0x1C00 then chgRange a w
  else if a < 0x2000 then (if 0x1D50 ≤ a ∧ a ≤ 0x1D57 then field w 2 0 ≤ 5 && 1 ≤ field w 15 8 else true)
  else if a < 0x2100 then
    match (a - 0x2000) % 0x40 with
    | 3 => 1 ≤ v
    | 0xB => v = 0
    | _ => true
  else if a < 0x3000 then (if a = 0x2101 then v = 0 else true)
  else if a < 0x3020 then (if a % 4 = 1 then within v 1 25000 else true)
  else if a < 0x4000 then true
  else if a < 0x4800 then
    if 0x4100 ≤ a ∧ a ≤ 0x41FF then v ≤ 256
    else match a with
    | 0x4000 => field w 2 1 ≠ 3
    | 0x4003 => 10 ≤ v
    | 0x4004 => 1 ≤ v
    | 0x4006 | 0x4007 => signedWithin (sgn w) (-2000) 2000
    | _ => true
  else if a < 0x5000 then
    if 0x4900 ≤ a ∧ a ≤ 0x49FF then v ≤ 256
    else match a with
    | 0x4800 => field w 2 1 ≠ 3
    | 0x4811 => 10 ≤ v
    | _ => true
  else if a < 0x5200 then
    match a with
    | 0x5001 => 1 ≤ v
    | 0x5002 => field w 13 12 ≠ 3
    | 0x5013 => field w 1 0 ≠ 3 && field w 7 6 ≠ 3
    | 0x5104 => v = 0
    | _ => true
  else if a < 0x5400 then
    match (a - 0x5200) % 0x100 with
    | 1 => 1 ≤ field w 12 8
    | 2 | 3 => 26 ≤ v
    | 6 => within v 0x08 0x77
    | _ => true
  else if a < 0x5600 then
    match a with
    | 0x5401 => field w 3 2 ≠ 3
    | 0x5402 => 16 ≤ v
    | 0x5403 => 1 ≤ v
    | _ => true
  else if a < 0x5A00 then
    match a with
    | 0x5908 => field w 5 0 ≤ 59 && field w 13 8 ≤ 59
    | 0x5909 => field w 4 0 ≤ 23 && within (field w 12 8) 1 31
    | 0x590A => within (field w 3 0) 1 12 && field w 14 8 ≤ 99
    | 0x5920 => field w 1 0 ≠ 3
    | _ => true
  else if a = 0x6806 then 1 ≤ v
  else true

-- staged entries

/-- The staged word of an address, in whatever group. -/
def State.staged (s : State) (a : Nat) : Option DEntry := s.draught.find? fun e => e.addr = a

def State.holding (s : State) (h : Holder) : Option DHolder := s.holders.find? fun d => d.holder = h

/-- GEN of a holder; 0 for a holder that is no unit. -/
def holderGen (s : State) : Holder → Byte
  | .unit n => (s.unit n).gen
  | _ => 0

/-- An entry in its place by ascending address; a staged word at the same address is replaced (R266). -/
def insertEntry (x : DEntry) : List DEntry → List DEntry
  | [] => [x]
  | y :: ys => if x.addr < y.addr then x :: y :: ys else if x.addr = y.addr then x :: ys else y :: insertEntry x ys

/-- A staged word of requester r is stored in group g; its holder's GEN is recorded when it first enters (R31, R266). -/
def stage (s : State) (r : Req) (a : Nat) (w : Word) (g : BitVec 3) (h : Holder) : State :=
  { s with
    draught := insertEntry { addr := a, word := w, group := g, loader := r == .loader } s.draught
    holders := match s.holding h with
      | some _ => s.holders
      | none => s.holders ++ [{ holder := h, group := g, gen := holderGen s h }] }

/-- The entries of a group, by ascending address. -/
def groupEntries (s : State) (g : Nat) : List DEntry := s.draught.filter fun e => e.group.toNat = g

/-- A group is emptied (R273, R276). -/
def dropGroup (s : State) (g : Nat) : State :=
  { s with draught := s.draught.filter fun e => e.group.toNat ≠ g
           holders := s.holders.filter fun h => h.group.toNat ≠ g }

/-- What the grist loader left uncommitted is aborted (R103): its entries, and holders left without one. -/
def dropLoader (s : State) : State :=
  let es := s.draught.filter fun e => !e.loader
  { s with draught := es
           holders := s.holders.filter fun h => es.any fun e => holderOf e.addr = some h.holder }

-- checks of a commit

/-- The registers as the commit of `es` would leave them. -/
def withEntries (s : State) (es : List DEntry) : State := es.foldl (fun s e => s.setReg e.addr e.word) s

/-- In the values of `s`, controller n is covered by one gang at most, and no gang leader lies inside another gang
(R130). -/
def gangsOk (s : State) (n : Nat) : Bool :=
  let base := n / 4 * 4
  let covers (k i : Nat) : Bool := k ≤ i && i ≤ k + gangOf s k && gangOf s k ≠ 0
  (List.range 4).all fun j =>
    let i := base + j
    let leaders := ((List.range 4).map (base + ·)).filter fun k => covers k i
    leaders.length ≤ 1 && (gangOf s i = 0 || leaders.all fun k => k = i)

/-- A follower of a gang in the values of `s`. -/
def isFollower (s : State) (k : Nat) : Bool := k < 16 && leaderOf s k ≠ k

/-- Ports claim by MAPEN.CLAIM of an enabled slot. -/
def claims (s : State) (k : Nat) : Bool := slotEnabled s k && bit (s.reg (0x1803 + 0x10 * (k / 4))) (4 + k % 4)

/-- Slot k claims newly between the values of `s` and `t`: the claim bit rises, or the claiming slot is enabled or
mapped anew (R222). A commit that carries CLAIM 1 where that is committed already, for the same enabled slot and rail, sets nothing
and claims nothing (DESIGN CHOICE, log entry 61). -/
def newClaim (s t : State) (k : Nat) : Bool := claims t k && !(claims s k && slotRail s k == slotRail t k)

/-- Range checks on the values that the commit would leave (R125 to R130, R134, R162, R223, R410; 11_taps_and_measurement.md,
MEA_EXTREF; 16_i2c_and_uart.md, R560). -/
def crossOk (t : State) (a : Nat) : Bool :=
  if 0x1000 ≤ a ∧ a < 0x1400 then
    let n := (a - 0x1000) / 0x40
    match (a - 0x1000) % 0x40 with
    | 0x01 => gangsOk t n
    | 0x04 | 0x05 => (t.reg (0x1005 + 0x40 * n)).toNat < (t.reg (0x1004 + 0x40 * n)).toNat
    -- MODE and SRC are two fields, so R134's limit on both is a cross-field one
    | 0x0C => field (t.reg a) 1 0 = 0 || field (t.reg a) 7 4 ≠ n
    | _ => true
  else if 0x1500 ≤ a ∧ a < 0x1600 then
    let b := 0x1500 + 8 * ((a - 0x1500) / 8)
    !bit (t.reg (b + 1)) 0 || field (t.reg (b + 3)) 11 0 < (t.reg (b + 2)).toNat
  else if 0x1800 ≤ a ∧ a < 0x1840 then
    let p := (a - 0x1800) / 0x10
    match (a - 0x1800) % 0x10 with
    | 2 | 3 => (List.range 4).all fun m =>
        let k := 4 * p + m
        !slotEnabled t k || (!isFollower t (slotRail t k) &&
          (!claims t k || slotKeys.all fun j => j / 4 = p || !claims t j || slotRail t j ≠ slotRail t k))
    | _ => true
  else if a = 0x3020 ∨ a = 0x3021 then within (t.pair 0x3020).toNat 1000000 5000000
  else if 0x3028 ≤ a ∧ a ≤ 0x3031 then sumAcct (rsv t) ≤ 1024
  else if a = 0x5204 ∨ a = 0x5203 ∨ a = 0x5304 ∨ a = 0x5303 then
    let b := if a < 0x5300 then 0x5200 else 0x5300
    field (t.reg (b + 4)) 15 8 + field (t.reg (b + 4)) 7 0 ≤ (t.reg (b + 3)).toNat
  else true

/-- CFG.ON of rail code k. -/
def onOf (s : State) (k : Nat) : Bool := bit (s.reg (railBase k + 1)) 0

/-- The commit switches rail n off out of TRACK_WAIT, so that check 11 does not apply to it and its other entries are
checked as in OFF (R120). -/
def leavesTrackWait (s t : State) (n : Nat) : Bool := n < 16 && (s.unit n).code == 1 && onOf s n && !onOf t n

/-- Controller k counts as OFF for R125: it is OFF, or a follower of a leader that is OFF and that the commit
changes; a rail that the commit switches off out of TRACK_WAIT is OFF for it (R120). -/
def countsOff125 (s t : State) (es : List DEntry) (k : Nat) : Bool :=
  let l := leaderOf s k
  (s.unit k).code == 0 || leavesTrackWait s t k ||
    (l ≠ k && ((s.unit l).code == 0 || leavesTrackWait s t l) && es.any fun e => holderOf e.addr = some (.unit l))

/-- Check 12 for one entry: the state allows what the entry changes (R122, R125, R155, R301, R381, R510, R540). Of a change
of TRACK.MODE the controllers involved are the rail and the phases of its gang, not the tracking source (DESIGN CHOICE,
log entry 27). -/
def stateOk (s t : State) (es : List DEntry) (e : DEntry) : Bool :=
  let a := e.addr
  let old := s.reg a
  if old = e.word ∧ ¬(0x2000 ≤ a ∧ a < 0x2100) then true
  else if 0x1000 ≤ a ∧ a < 0x1400 then
    let n := (a - 0x1000) / 0x40
    let off := leavesTrackWait s t n
    match (a - 0x1000) % 0x40 with
    | 0x01 =>
      let onOk := if onOf t n && !onOf s n then railStateOk s n .on
        else if !onOf t n && onOf s n then railStateOk s n .off else true
      let divOk := field old 2 1 = field e.word 2 1 || countsOff125 s t es n
      let gangOk := field old 4 3 = field e.word 4 3 ||
        (List.range 4).all fun i => max (field old 4 3) (field e.word 4 3) < i || countsOff125 s t es (n + i)
      onOk && divOk && gangOk
    | 0x02 => off || railStateOk s n (.setv e.word)
    | 0x0C => field old 1 0 = field e.word 1 0 ||
        (List.range 4).all fun i => gangOf s n < i || countsOff125 s t es (n + i)
    | _ => true
  else if 0x1400 ≤ a ∧ a < 0x1500 then
    let k := uLd ((a - 0x1400) / 0x20)
    match (a - 0x1400) % 0x20 with
    | 1 => if onOf t k && !onOf s k then railStateOk s k .on
        else if !onOf t k && onOf s k then railStateOk s k .off else true
    | 2 => railStateOk s k (.setv e.word)
    | _ => true
  else if a = 0x1A01 then
    let same := field old 4 1 = field e.word 4 1 && field old 9 8 = field e.word 9 8
    (same || (s.unit uChg).code == 0) && !(bit e.word 0 && !bit (s.reg 0x1A01) 0 && s.present 3 0)
  else if 0x2000 ≤ a ∧ a < 0x2100 ∧ (a - 0x2000) % 0x40 = 1 then
    let c := (s.unit (uEng ((a - 0x2000) / 0x40))).code
    !bit e.word 0 || c == 0
  else if 0x3000 ≤ a ∧ a < 0x3020 ∧ a % 4 = 0 then
    bit e.word 0 || (boundTaps s ((a - 0x3000) / 4)).isEmpty
  else if a = 0x5004 then (List.range 4).all fun i => (s.unit (uEng i)).code == 0 || (s.unit (uEng i)).fenced
  else true

/-- A sequencer table is running (SEQ_ST.STATE POWERING or SHUTTING). -/
def seqRunning (s : State) : Bool := s.seq.st == 1 || s.seq.st == 3

/-- The checks of one entry of a commit, in the order of R38 (R271). -/
def entryCode (s t : State) (es : List DEntry) (e : DEntry) : Word :=
  let h := (holderOf e.addr).getD .seq
  let gen := match s.holding h with
    | some d => d.gen
    | none => 0
  let (fenced, busy) := match h with
    | .unit n => ((s.unit n).fenced, (s.unit n).busy && !leavesTrackWait s t n)
    | .seq => (false, seqRunning s)
    | _ => (false, false)
  let badClaim := if 0x1800 ≤ e.addr ∧ e.addr < 0x1840 then
      (List.range 4).any fun m =>
        let k := 4 * ((e.addr - 0x1800) / 0x10) + m
        newClaim s t k && (s.unit (slotRail t k)).owner ≠ .management
    else false
  firstFail [(!crossOk t e.addr, eRange), (heldAddr s e.addr, eProof), (fenced, eFenced), (badClaim, eOwner),
    (gen ≠ holderGen s h, eStale), (busy, eBusy), (!stateOk s t es e, eState)]

/-- The first failing entry of a group with its code (R271, R272). -/
def commitFailure (s : State) (es : List DEntry) : Option (DEntry × Word) :=
  let t := withEntries s es
  (es.map fun e => (e, entryCode s t es e)).find? fun p => p.2 ≠ eOk

-- timer writes on their way

def tmrAddr (n o : Nat) : Nat := 0x5800 + 0x10 * n + o

def TimerWord.offset : TimerWord → Nat
  | .cnt => 4
  | .buf => 5
  | .mtch => 6

/-- One live write takes effect in the island (R595). -/
def landOne (n : Nat) (s : State) (p : TimerWord × Word) : State :=
  let t := s.timer n
  (s.setTimer n { t with bufNew := t.bufNew || p.1 = .buf, loaded := t.loaded || (p.1 = .cnt && t.run) }).setReg
    (tmrAddr n (TimerWord.offset p.1)) p.2

/-- The first k live writes on their way land, in the order in which they were issued (R17). -/
def landFirst (s : State) (n k : Nat) : State :=
  let q := (s.timer n).landing
  (q.take k).foldl (landOne n) (s.setTimer n { s.timer n with landing := q.drop k })

-- what a commit does to a unit, `s` before it and `t` with its words

/-- The start of phase i's periods within the period of a gang of k phases: (i × PER) / k after the leader (R131). -/
def gangPhase (per phase k i : Nat) : Nat := (phase + i * per / k) % per

/-- PER and PHASE of rail n take effect (R128, R129), with those of its follower phases (R131). -/
def applyPer (s : State) (n : Nat) : State :=
  let per := (effReg s n 4).toNat
  let phase := (effReg s n 5).toNat
  let k := gangOf s n + 1
  (List.range k).foldl (fun s i => s.setRail (n + i)
    { s.rail (n + i) with per := wd per, phase := wd (gangPhase per phase k i) }) s

/-- The outputs of rail n do not switch in this state, so PER and PHASE take effect at once. -/
def perFree (c : BitVec 4) : Bool := c == 0 || c == 1 || c == 7 || c == 0xF

/-- A switching rail's transition in a commit (R120 to R122, R125, R130 to R132, R135, R147). -/
def moveRail (s : State) (src : BitVec 4) (t : State) (n : Nat) : State :=
  let u := s.unit n
  let vNew := s.reg (0x1002 + 0x40 * n) ≠ t.reg (0x1002 + 0x40 * n)
  let x := { heldEff s t n (t.rail n) with oldV := s.reg (0x1002 + 0x40 * n) }
  if isFollower t n then
    let t := (t.setRail n { x with disch := false, tracking := false, checked := false }).accept n src
      fun u => { u with code := 7, owner := .sequencer, oidx := 0, busy := false }
    t.changed n fun _ => false
  else if isFollower s n then
    ((((t.setRail n x).accept n src fun u => { u with code := 0, owner := .management, oidx := 0, busy := false }).setOn n
      false).orReg (0x1011 + 0x40 * n) 2).changed n fun _ => false
  else if onOf t n && !onOf s n then
    let w := waitsForSource { s with regs := t.regs } (fun _ => false) n
    let t := (t.setRail n { x with disch := false, checked := false, tracking := w }).accept n src
      fun u => { u with code := if w then 1 else 2, busy := true }
    t.changed n fun _ => false
  else if !onOf t n && onOf s n then
    if u.code = 1 then
      let t := (t.setRail n { x with tracking := false }).accept n src fun u => { u with code := 0, busy := false }
      (t.preempted n fun _ => false).orReg (0x1011 + 0x40 * n) 2
    else if x.hushed then
      ((t.setRail n { x with after := some 6 }).accept n src fun u => { u with busy := true }).changed n fun _ => false
    else
      ((t.setRail n { x with pg := false }).accept n src fun u => { u with code := 6, busy := true }).changed n
        fun _ => false
  else if vNew && u.code == 4 then
    if x.hushed then
      ((t.setRail n { x with after := some 5 }).accept n src fun u => { u with busy := true }).changed n fun _ => false
    else ((t.setRail n x).accept n src fun u => { u with code := 5, busy := true }).changed n fun _ => false
  else ((t.setRail n x).accept n src fun u => u).changed n fun _ => false

/-- A switching rail: its transition, and PER and PHASE at once where its outputs do not switch (R129). A commit of the
present VSET code starts no ramp (log entry 23). -/
def commitRail (s : State) (src : BitVec 4) (t : State) (n : Nat) : State :=
  let t := moveRail s src t n
  if perFree (s.unit n).code && !isFollower t n then applyPer t n else t

/-- An LDO (R155, R156). -/
def commitLdo (s : State) (src : BitVec 4) (t : State) (n : Nat) : State :=
  let k := uLd n
  if onOf t k && !onOf s k then
    (t.setLdo n { s.ldo n with disch := false }).accept k src fun u => { u with code := 2, busy := true }
  else if !onOf t k && onOf s k then
    let t := if (s.ldo n).pg then t.orReg (0x1405 + 0x20 * n) 2 else t
    (t.setLdo n { s.ldo n with pg := false }).accept k src fun u => { u with code := 6, busy := true }
  else t.accept k src fun u => u

/-- A unit whose state code is `on` while the bit EN of its register is 1, and OFF otherwise: a commit that changes EN
moves it, and any other leaves its code. -/
def commitEn (s : State) (src : BitVec 4) (t : State) (u a : Nat) (on : BitVec 4) : State :=
  let b0 := bit (s.reg a) 0
  let b1 := bit (t.reg a) 0
  t.accept u src fun x => if b1 && !b0 then { x with code := on, busy := false }
    else if b0 && !b1 then { x with code := 0, busy := false } else x

/-- An engine starts (R301): at ENTRY with its registers and flags at 0. A debug halt and an armed STEP outlast the start
(R344, R346), and an NMI that has reached the engine is still pending (R235); no handler is active (DESIGN CHOICE, log
entry 39). -/
def engineStart (s : State) (n : Nat) : State :=
  let e : Eng := { pc := s.reg (0x2002 + 0x40 * n), wdog := s.reg (0x2003 + 0x40 * n) }
  let x := s.eng n
  s.setEng n { e with halted := x.halted, haltReq := x.haltReq, stepArm := x.stepArm, nmipend := x.nmipend }

/-- A recipe engine (R301, R302): a start, or a stop after the current instruction (ENGINE_STOP). -/
def commitEngine (s : State) (src : BitVec 4) (t : State) (n : Nat) : State :=
  let a := 0x2001 + 0x40 * n
  let b0 := bit (s.reg a) 0
  let b1 := bit (t.reg a) 0
  if b1 && !b0 then engineStart (t.accept (uEng n) src fun u => { u with code := 1, busy := false }) n
  else if b0 && !b1 then
    (t.accept (uEng n) src fun u => { u with busy := true }).setEng n { s.eng n with stopReq := true }
  else t.accept (uEng n) src fun u => u

/-- A load command port (R228, R229). -/
def commitLcp (s : State) (src : BitVec 4) (t : State) (p : Nat) : State :=
  let t := commitEn s src t (uLcp p) (0x1801 + 0x10 * p) 1
  if bit (t.reg (0x1801 + 0x10 * p)) 0 then t else t.setPort p (t.port p).ended

/-- A ring lane (R431); it reads OFF while the ring island is in reset. -/
def commitLane (s : State) (src : BitVec 4) (t : State) (n : Nat) : State :=
  let a := 0x4040 + 0x10 * n
  let c : BitVec 4 := if !s.ring.live || !bit (t.reg a) 0 then 0 else if bit (t.reg a) 1 then 5 else 1
  if field (s.reg a) 1 0 = field (t.reg a) 1 0 then t.accept (uLane n) src fun u => u
  else
    let t := t.orReg (laneAddr n 8) (wd (laneEvents (s.unit (uLane n)).code c))
    (t.accept (uLane n) src fun u => { u with code := c, busy := false }).setLane n { t.lane n with prbsLock := false }

/-- The charger (R510, R525): CHG_EVT.PHASE where the state code changes. -/
def commitChg (s : State) (src : BitVec 4) (t : State) : State :=
  let b0 := bit (s.reg 0x1A01) 0
  let b1 := bit (t.reg 0x1A01) 0
  let c := (s.unit uChg).code.toNat
  let stopped := (2 ≤ c && c ≤ 6) || c == 8
  let t := t.accept uChg src fun u => if b1 && !b0 then { u with code := 1, busy := false }
    else if b0 && !b1 then { u with code := 0, busy := false } else u
  let t := if b0 == b1 then t
    else { t with chg := { t.chg with reason := if b0 && stopped then 7 else t.chg.reason, susp := 0, scan := false,
                                      ilimVin := false, vmaxCheck := 0 } }
  if (t.unit uChg).code = (s.unit uChg).code then t else t.orReg 0x1A20 1

/-- A measurement converter (R381, R387): a changed setting takes effect at the next period boundary. -/
def commitMc (src : BitVec 4) (t : State) (c : Nat) : State :=
  let t := t.accept (uMc c) src fun u => u
  convServe (t.setCode (uMc c) (convCode t c)) c

/-- One touched unit accepts its transition (R273). A supervisor that is switched off ends its events in progress (DESIGN
CHOICE, log entry 26). -/
def commitUnit (s : State) (src : BitVec 4) (t : State) (u : Nat) : State :=
  if u < 0x010 then commitRail s src t u
  else if u < 0x018 then commitLdo s src t (u - 0x010)
  else if u < 0x038 then
    let n := u - 0x018
    let t := commitEn s src t u (0x1501 + 8 * n) 1
    if bit (t.reg (0x1501 + 8 * n)) 0 then t else t.setSup n {}
  else if u < 0x03C then commitEngine s src t (u - 0x038)
  else if u < 0x040 then commitLcp s src t (u - 0x03C)
  else if u < 0x048 then
    let n := u - 0x040
    let b1 := bit (t.reg (0x5801 + 0x10 * n)) 0
    let b0 := bit (s.reg (0x5801 + 0x10 * n)) 0
    -- the live writes issued before the commit come before it (R17)
    let t := landFirst t n (t.timer n).landing.length
    let t := commitEn s src t u (0x5801 + 0x10 * n) 1
    -- OFF holds the output at IDLE (R599)
    if b0 == b1 then t
    else t.setTimer n { t.timer n with run := false, loaded := false, out := bit (t.reg (0x5801 + 0x10 * n)) 6 }
  else if u < 0x04C then commitLane s src t (u - 0x048)
  else if u = uFloor then
    let x := commitEn s src t u 0x4800 1
    -- an enabled port seeks, and a disabled one has no timing (R480)
    if bit (s.reg 0x4800) 0 == bit (t.reg 0x4800) 0 then x
    else floorFresh x
  else if u = uChg then commitChg s src t
  else if u < 0x056 then commitMc src t (u - 0x04E)
  else if u = uI2ca then commitEn s src t u 0x5201 1
  else if u = uI2cb then commitEn s src t u 0x5301 1
  else if u = uUart then commitEn s src t u 0x5401 1
  else t.accept u src fun x => x

/-- A rail that a commit claims: the port becomes its owner, and every slot of the port that maps it records its GEN
(R222). `touched` says the rail has entries of its own, whose transition this is part of (R273). A claim
of a rail whose BUSY is 1 is accepted: R222 names OWNER alone (DESIGN CHOICE, log entry 61). -/
def commitClaim (src : BitVec 4) (touched : Nat → Bool) (s : State) (t : State) (k : Nat) : State :=
  if newClaim s t k then
    let n := slotRail t k
    let p := k / 4
    let t := if touched n then t.setUnit n { t.unit n with owner := .port, oidx := BitVec.ofNat 4 p }
      else if (t.unit n).owner = .port then t
      else (t.accept n src fun u => { u with owner := .port, oidx := BitVec.ofNat 4 p }).changed n fun _ => false
    slotKeys.foldl (fun t j => if j / 4 = p ∧ slotRail t j = n then
      t.setReg (xgenAddr j) (BitVec.setWidth 16 (t.unit n).gen) else t) t
  else t

/-- The units that a commit makes accept a transition, without the claimed rails: those with entries, and gang followers
taken in or released (R132, R273). -/
def touchedUnits (s t : State) (es : List DEntry) : List Nat :=
  let own := es.filterMap fun e => match holderOf e.addr with
    | some (.unit n) => some n
    | _ => none
  let moved := (List.range 16).filter fun k => leaderOf s k ≠ leaderOf t k && (isFollower s k || isFollower t k)
  (List.range 256).filter fun n => own.contains n || moved.contains n

/-- The ledger entry of a numbered commit (R278). -/
def ledgerPut (s : State) (r : Req) (g units : Nat) : State :=
  let slot := if s.commitNo = 1 then 0 else ((s.reg 0x0508).toNat + 1) % 32
  let ws := [s.commitNo.setWidth 16, (s.commitNo >>> 16).setWidth 16, wd (g + 16 * r.idx), wd units] ++ timeWords s.now
  let led := (List.range 8).foldl (fun m i => mset dZero m (slot * 8 + i) (ws.getD i 0)) s.ledger
  { s with ledger := led }.setReg 0x0508 (wd slot)

/-- The units whose transition counts in RES2 (R298): the touched units and the rails that only a claim changed. -/
def countUnits (s t : State) (us : List Nat) : Nat :=
  let claimed := ((slotKeys.filter (newClaim s t)).map (slotRail t)).filter fun n => !us.contains n
  us.length + claimed.eraseDups.length

/-- A commit that passes: every entry of the group takes effect at once (R273 to R275, R278). -/
def applyCommit (s : State) (r : Req) (g : Nat) (es : List DEntry) : State × Nat :=
  let t0 := withEntries s es
  let us := touchedUnits s t0 es
  let n := countUnits s t0 us
  let t := us.foldl (commitUnit s r.src) t0
  let t := slotKeys.foldl (commitClaim r.src us.contains s) t
  -- rails that entered STARTING take their waiting followers with them (R135)
  let t := (List.range 16).foldl
    (fun t k => if us.contains k && (t.unit k).code == 2 && (s.unit k).code == 0 then startWaiters t k else t) t
  let t := if es.any (fun e => e.addr = 0x5004 && s.reg 0x5004 != e.word) then { t with cache := [] } else t
  -- with LOCKEN 0 the timebase runs free (R588, R590)
  let t := if es.any (fun e => e.addr = 0x5890 && !bit e.word 0) then
    (t.setReg 0x5891 (t.reg 0x5891 &&& 2)).condOff 9 1 else t
  let t := if es.any (fun e => 0x4000 ≤ e.addr && e.addr < 0x4080) then ringJudge t else t
  let t := dropGroup { t with commitNo := t.commitNo + 1 } g
  let t := ledgerPut t r g n
  (logPut t 0x04 false [t.commitNo.setWidth 16, (t.commitNo >>> 16).setWidth 16, wd (g + 16 * r.idx), wd n], n)

/-- A commit of group g by requester r (R271 to R275): the final code and the four result words. -/
def commitGroup (s : State) (r : Req) (g : Nat) : State × Word × List Word :=
  let es := groupEntries s g
  if es.isEmpty then (s, eOk, [])
  else match commitFailure s es with
  | some (e, c) =>
    (s, c, [wd e.addr, match holderOf e.addr with
      | some (.unit n) => wd n
      | _ => 0xFFFF])
  | none =>
    let (t, n) := applyCommit s r g es
    (t, eOk, [t.commitNo.setWidth 16, (t.commitNo >>> 16).setWidth 16, wd n])

end Sys2Proof.Machine
end

