-- ==== Sys2Proof/Machine/Seq.lean ====
section
/-! DEFINITION. The sequencer and the STOP_N ball (05_sequencing_and_cold_stop.md): steps, actions, conditions,
failures, the step window, and the events of this chapter. -/

namespace Sys2Proof.Machine

open Sys2Proof

/-- Word w of step i of a table. -/
def stepKey (table : Bool) (i w : Nat) : Nat := (b2n table * 96 + i) * 4 + w
def State.stepWord (s : State) (w : Nat) : Word := mget dZero s.seqTab (stepKey s.seq.table s.seq.step w)

/-- Tun of rail code k (SEQ_TUNMAP). -/
def tunOf (s : State) (k : Nat) : Nat := field (s.reg (0x1608 + k / 4)) (4 * (k % 4) + 2) (4 * (k % 4))

/-- The rails a step targets: its rail, or every member of its tun but gang followers (R177, R179). -/
def stepTargets (s : State) : List Nat :=
  let w0 := s.stepWord 0
  if bit w0 2 then railCodes.filter fun k => tunOf s k == field w0 5 3 && !isFollower s k
  else [field w0 7 3]

/-- SEQ_ST. -/
def seqWord (s : State) : Word :=
  wd (s.seq.st.toNat + flag s.seq.table 3 + 16 * s.seq.step + flag s.seq.waiting 11 + flag s.seq.retry 12)

/-- A table starts at step 0; the power-on table has then been started (GLB_ST.PHASE, R110). -/
def startTable (s : State) (table : Bool) : State :=
  { s with
    seq := { st := if table then 3 else 1, table := table }
    boot := if !table && s.boot.phase = .ready then { s.boot with phase := .running } else s.boot }

/-- The next step, or the end of the table after an END step or step 95 (R170). -/
def endTable (s : State) : State :=
  { s with seq := { s.seq with st := if s.seq.table then 4 else 2, waiting := false, retry := false, left := [],
                               started := [], entered := false } }
def nextStep (s : State) : State :=
  if s.seq.step ≥ 95 then endTable s
  else { s with seq := { st := s.seq.st, table := s.seq.table, step := s.seq.step + 1 } }

/-- A step failure with its code (R182): the record, the TIMING occurrence, and ONFAIL. -/
def stepFail (s : State) (code : Word) : State :=
  let k := s.seq.step
  let onfail := field (s.stepWord 0) 9 8
  let det : Byte := BitVec.ofNat 8 (k + flag s.seq.table 7)
  let s := (s.setReg 0x1602 (wd (k + flag s.seq.table 7))).setReg 0x1603 code
  match onfail with
  | 0 => ({ s with seq := { s.seq with st := 5, waiting := false, retry := false, left := [], started := [],
                                       entered := false } }).occur 9 0 det
  | 1 => (startTable s true).occur 9 0 det
  | 2 =>
    -- the FAULT entry and the COLD_STOP entry follow each other (R293)
    let s := coldStop s causeOnfail 0x1F fun _ => false
    s.occur 9 0 det (some (s.reg 0x1604))
  | _ => (nextStep s).occur 9 0 det

/-- One request of a step to rail code k (R177, R178): the state after it, whether it is left for a retry, and a code
that fails the step. -/
def stepRequest (s : State) (k : Nat) (on : Bool) : State × Bool × Option Word :=
  let q : RailReq := if on then .on else .off
  let c := if isFollower s k then eState else railCode s k true none q
  let u := s.unit k
  if c = eOk then
    let t := railDo s k srcSeq none (fun j => s.seq.started.contains j) q
    -- every rail that this request put in STARTING, a waiting follower too, counts as OFF for the rest of the step (R135)
    let new := (List.range 16).filter fun j => on && (t.unit j).code == 2 && (s.unit j).code != 2
    let st := s.seq.started ++ new
    ({ t with seq := { t.seq with started := st } }, false, none)
  else if c = eState ∧ ((on ∧ u.code = 4) ∨ (¬on ∧ (u.code = 0 ∨ u.code = 0xF))) then (s, false, none)
  else if c = eBusy then (s, true, none)
  else (s, false, some c)

/-- The requests of a step to the rails of `ks`: all are issued, and the first bad reply decides (R177, R178). -/
def stepRequests (s : State) (ks : List Nat) (on : Bool) : State × List Nat × Option Word :=
  ks.foldl (fun (p : State × List Nat × Option Word) k =>
    let (t, busy, bad) := stepRequest p.1 k on
    (t, if busy then p.2.1 ++ [k] else p.2.1, if p.2.2.isSome then p.2.2 else bad)) (s, [], none)

/-- The action phase after its requests: failure, retry, or the condition phase. -/
def afterAction (p : State × List Nat × Option Word) : State :=
  let (s, left, bad) := p
  match bad with
  | some c => stepFail s c
  | none => { s with seq := { s.seq with left := left, retry := !left.isEmpty, waiting := left.isEmpty } }

/-- SEQ_STEP_ENTER: the sequencer enters its step (R173, R177, R181). -/
def seqEnter (s : State) : State :=
  if !seqRunning s || s.seq.entered then s
  else
    let s := { s with seq := { s.seq with entered := true } }
    let w0 := s.stepWord 0
    let act := field w0 1 0
    if act = 3 then endTable s
    else if field (s.stepWord 3) 13 0 = 0 then stepFail s eRange
    else if field (s.stepWord 1) 3 0 = 5 ∧ ¬(s.supply.serOk ∧ s.supply.seraOk) then stepFail s eUnreach
    else if act = 0 then { s with seq := { s.seq with waiting := true } }
    else afterAction (stepRequests s (stepTargets s) (act = 1))

/-- SEQ_ACTION_RETRY: the requests answered E_BUSY again (R178). -/
def seqRetry (s : State) : State :=
  if seqRunning s && s.seq.retry then
    afterAction (stepRequests s s.seq.left (field (s.stepWord 0) 1 0 = 1))
  else s

/-- Under-voltage of supervisor n is armed (R164, SVn_ST.UVARM). That EN must be 1 while a linked rail regulates too is a DESIGN
CHOICE (log entry 26). -/
def uvArmed (s : State) (n : Nat) : Bool :=
  let cfg := s.reg (0x1501 + 8 * n)
  let link := field cfg 6 2
  bit cfg 0 && (link = 0x1F || (link < 24 && (s.unit (if link < 16 then leaderOf s link else link)).code == 4))

/-- The condition of the step is met (R179); of a DELAY the command itself says that the time has passed. In a deep sleep of the
router a doorbell's pending bit is the saved one (R378). -/
def conditionMet (s : State) (delayPassed : Bool) : Bool :=
  let w1 := s.stepWord 1
  let arg := field w1 11 4
  match field w1 3 0 with
  | 0 => true
  | 1 => (stepTargets s).all fun k => (s.unit k).code == 4
  | 2 => (stepTargets s).all fun k => (s.unit k).code == 0 || (s.unit k).code == 0xF
  | 3 => !(s.sup arg).ov && !(s.sup arg).uv && uvArmed s arg
  | 4 => delayPassed
  | 5 => s.ring.release.getLsbD arg
  | 6 => s.floor.release.getLsbD arg
  | 7 => s.irq.awake.pend.getLsbD (0x100 + arg)
  | _ => false

/-- SEQ_CONDITION_MET. -/
def seqMet (s : State) : State :=
  if seqRunning s && s.seq.waiting && conditionMet s true then nextStep s else s

/-- SEQ_STEP_TIMEOUT: a condition met in the same cycle wins (R180). -/
def seqTimeout (s : State) : State :=
  if !(seqRunning s && s.seq.entered) then s
  else if s.seq.waiting && conditionMet s false then nextStep s
  else stepFail s eTimeout

-- the step window

/-- Longest CARG of each condition (R171). -/
def cargMax (cond : Nat) : Nat :=
  match cond with
  | 3 => 31
  | 5 | 6 => 255
  | 7 => 127
  | _ => 0

/-- Timeout unit in units of 10 µs (R171). -/
def unit10us (u : Nat) : Nat :=
  match u with
  | 0 => 1
  | 1 => 100
  | _ => 10000

/-- The words of a step are in range (R171, R172, R174). -/
def stepOk (table : Bool) (w0 w1 w2 w3 : Word) : Bool :=
  if field w0 1 0 = 3 then w0 = 3 && w1 = 0 && w2 = 0 && w3 = 0
  else
    let cond := field w1 3 0
    let count := field w3 13 0
    let u := field w3 15 14
    (if bit w0 2 then field w0 7 3 ≤ 7 else field w0 7 3 ≤ 0x17) && cond ≤ 7 && field w1 11 4 ≤ cargMax cond &&
      count ≠ 0 && u ≠ 3 && !(table && field w0 9 8 = 1) &&
      (if cond = 4 then w2 ≠ 0 && w2.toNat < count * unit10us u else w2 = 0)

/-- The checks of a write of SEQ_WIN_W3 (R171 to R176); whatever is wrong with an END step is out of range (R172). -/
def winW3Code (s : State) (w3 : Word) : Word :=
  let w0 := s.reg 0x1611
  let w1 := s.reg 0x1612
  firstFail [(field w0 1 0 ≠ 3 && (resBits w0 0x03FF || resBits w1 0x0FFF), eReserved),
    (!stepOk (bit (s.reg 0x1610) 8) w0 w1 (s.reg 0x1613) w3, eRange), (seqRunning s, eBusy)]

/-- The four words are stored as the selected step (R175). -/
def winStore (s : State) (w3 : Word) : State :=
  let s := s.setReg 0x1614 w3
  let sel := s.reg 0x1610
  let tab := [0, 1, 2, 3].foldl (fun m w => mset dZero m (stepKey (bit sel 8) (field sel 6 0) w) (s.reg (0x1611 + w)))
    s.seqTab
  { s with seqTab := tab }

/-- A write of SEQ_WIN_SEL loads the selected step into W0 to W3 (R175). -/
def winLoad (s : State) (sel : Word) : State :=
  let s := s.setReg 0x1610 sel
  [0, 1, 2, 3].foldl
    (fun s w => s.setReg (0x1611 + w) (mget dZero s.seqTab (stepKey (bit sel 8) (field sel 6 0) w))) s

-- mailbox operations: the state after, the final code and the results

/-- SEQ_POWER_ON (R183, R186). -/
def opSeqPowerOn (s : State) : State × Word × List Word :=
  let st := s.seq.st
  if (st = 0 ∨ st = 4 ∨ st = 5 ∨ st = 6) ∧ ¬(bit (s.reg 0x1601) 1 ∧ stopLow s) then
    let s := startTable s false
    (s, eOk, [seqWord s])
  else (s, eState, [])

/-- SEQ_SHUTDOWN (R183, R185). -/
def opSeqShutdown (s : State) : State × Word × List Word :=
  if s.seq.st = 3 then (s, eState, [])
  else
    let s := startTable s true
    (s, eOk, [seqWord s])

/-- SEQ_COLD_STOP (R183, R191). -/
def opSeqColdStop (s : State) (key : Word) : State × Word × List Word :=
  if key ≠ 0x5709 then (s, eRange, [])
  else
    let s := coldStopLogged s causeCommand
    (s, eOk, [seqWord s])

-- STOP_N

/-- An incoming low of STOP_N begins; `stays` where it has not ended again (R186, R197). -/
def stopFall (s : State) (stays : Bool) : State :=
  let masked := s.stopN.drv || s.stopN.timed
  let s := { s with stopN := { s.stopN with low := stays } }
  if !masked && bit (s.reg 0x1601) 1 then coldStopLogged s causeStopN else s

/-- HOLD µs have passed: the ball is released and its input stays masked for 1.00 µs (R195, R197). -/
def stopRelease (s : State) (low : Bool) : State :=
  if s.stopN.drv then { s with stopN := { drv := false, timed := true, low := low } } else s

/-- The mask ends (R197). -/
def stopMaskEnd (s : State) (low : Bool) : State :=
  if s.stopN.timed && !s.stopN.drv then
    let s := { s with stopN := { drv := false, timed := false, low := low } }
    if low && bit (s.reg 0x1601) 1 then coldStopLogged s causeStopN else s
  else s

-- the events of this chapter

/-- SEQ_STEP_ENTER (R177). -/
def execSeqStepEnter (s : State) : Host.Outcome State Fault Refusal := done (seqEnter s)

/-- SEQ_ACTION_RETRY (R178). -/
def execSeqActionRetry (s : State) : Host.Outcome State Fault Refusal := done (seqRetry s)

/-- SEQ_CONDITION_MET (R179). -/
def execSeqConditionMet (s : State) : Host.Outcome State Fault Refusal := done (seqMet s)

/-- SEQ_STEP_TIMEOUT (R182). -/
def execSeqStepTimeout (s : State) : Host.Outcome State Fault Refusal := done (seqTimeout s)

/-- STOP_N_FALL (R197). -/
def execStopNFall (stays : Bool) (s : State) : Host.Outcome State Fault Refusal := done (stopFall s stays)

/-- STOP_N_RELEASE (R195). -/
def execStopNRelease (low : Bool) (s : State) : Host.Outcome State Fault Refusal := done (stopRelease s low)

/-- STOP_N_MASK_END (R197). -/
def execStopNMaskEnd (low : Bool) (s : State) : Host.Outcome State Fault Refusal := done (stopMaskEnd s low)

end Sys2Proof.Machine
end

