-- ==== Sys2Proof/Machine/Reset.lean ====
section
/-! DEFINITION. Fences, block resets and releases of units (07_fault_handling.md, R239 to R242), chip reset and
power-on reset (02_balls_and_supplies.md; 03_start_up_and_grist.md). -/

namespace Sys2Proof.Machine

open Sys2Proof

-- controller transfers of the I2C ports

def setI2c (s : State) (p : I2cPort) (x : I2c) : State :=
  match p with
  | .a => { s with i2ca := x }
  | .b => { s with i2cb := x }

def getI2c (s : State) : I2cPort → I2c
  | .a => s.i2ca
  | .b => s.i2cb

/-- Address of a port's register by its offset. -/
def i2cAddr (p : I2cPort) (o : Nat) : Nat :=
  match p with
  | .a => 0x5200 + o
  | .b => 0x5300 + o

/-- A transfer ends (R572): RESULT, NBYTES and MDONE. -/
def i2cEnds (s : State) (p : I2cPort) (result nbytes : Nat) (evt : Word) : State :=
  ((setI2c s p { getI2c s p with mbusy := false }).setReg (i2cAddr p 0xB) (wd (result + 8 * nbytes))).orReg
    (i2cAddr p 0xC) (evt ||| 1)

/-- NBYTES of a transfer that ends before all its bytes: no more bytes are acknowledged or read than it has. -/
def xferBytes (f : I2cXfer) (nbytes : Nat) : Nat := min nbytes (max f.wr.length f.rd)

/-- A fence ends the transfer of I2C-B (R242), and so with a RESULT and MDONE; which RESULT, and after how many bytes, R572 does not
say of it (DESIGN CHOICE, log entry 65: free values). -/
def i2cbFenced (s : State) : State :=
  match s.i2cb.mbusy, s.i2cb.xfer with
  | true, some f =>
    let x := (Config.freeEnd s.fresh).toNat
    let s := if x % 6 = 1 then noteCode s f.by_ eUnreach else s
    (i2cEnds s .b (1 + x % 6) (xferBytes f (x / 6)) 0).tick
  | _, _ => s

-- fences

/-- The phase of a charge that a fence, a reset or EN 0 stops (CHG_ST.REASON 7). -/
def chargeRunning (s : State) : Bool :=
  let c := (s.unit uChg).code.toNat
  (2 ≤ c && c ≤ 6) || c == 8

/-- The charge stops for a reason of its own kind: reason 7. -/
def chargeStopped (s : State) : State :=
  if chargeRunning s then
    { s with chg := { s.chg with reason := 7, scan := false, ilimVin := false, vmaxCheck := 0 } }
  else s

/-- What a fence does to the unit beside FENCED (R242, R304, R405, R406, R572). That of a converter closes the current blocks of its
taps (DESIGN CHOICE, log entry 79). -/
def fenceEffects (s : State) (n : Nat) : State :=
  if 0x038 ≤ n ∧ n < 0x03C then
    -- a stop in flight is preempted with no effect left (R35, R39)
    { s.setEng (n - 0x038) { s.eng (n - 0x038) with stopReq := false } with irq := s.irq.release (n - 0x038) }
  else if n < 0x048 ∧ 0x040 ≤ n then
    -- the live writes issued before the fence come before it (R17)
    let s := landFirst s (n - 0x040) (s.timer (n - 0x040)).landing.length
    s.setTimer (n - 0x040) { s.timer (n - 0x040) with out := bit (s.reg (0x5801 + 0x10 * (n - 0x040))) 6 }
  else if n = uChg then chargeStopped s
  else if 0x04E ≤ n ∧ n < 0x056 then (convChanged s (n - 0x04E)).setConv (n - 0x04E) {}
  else if 0x048 ≤ n ∧ n < 0x04C then ringJudge s
  else if n = uI2cb then i2cbFenced s
  else if 0x080 ≤ n then gapTap (closeBlock s (n - 0x080)) (n - 0x080)
  else s

/-- A FENCE cellar entry (R291). -/
def logFence (s : State) (n : Nat) (fenced : Bool) : State :=
  logPut s 0x06 false [wd n, BitVec.setWidth 16 (s.unit n).gen, if fenced then 1 else 0]

/-- A fence, one transition (R239; R29 for a unit already fenced), from `src`. A block reset that runs goes on. -/
def fenceUnit (s : State) (n : Nat) (src : BitVec 4) : State :=
  let u := s.unit n
  let s := s.accept n src fun u => { u with fenced := true, busy := u.code == 0xE }
  if u.fenced then s else logFence (fenceEffects s n) n true

-- block reset

/-- The commands of `r` that still run complete in no bank. -/
def forgetCmds (s : State) (r : Req) : State :=
  { s with
    ring := { s.ring with
      pend := s.ring.pend.filter fun p => p.r != r
      tset := s.ring.tset.map fun p => (p.1, if p.2 == some r then none else p.2) }
    floor := { s.floor with pend := s.floor.pend.filter fun p => p.r != r }
    clock := { s.clock with seed := s.clock.seed.filter fun x => x != r }
    otp := { s.otp with kiln := s.otp.kiln.map fun k => { k with r := if k.r == some r then none else k.r } } }

/-- The requester whose interface or engine unit n is: its bank, latches and selections are reset; an interface keeps
its last-error register (R242, R671). -/
def resetReq (s : State) (n : Nat) : State :=
  match n with
  | 0x038 => (forgetCmds s (.engine 0)).setReq (.engine 0) {}
  | 0x039 => (forgetCmds s (.engine 1)).setReq (.engine 1) {}
  | 0x03A => (forgetCmds s (.engine 2)).setReq (.engine 2) {}
  | 0x03B => (forgetCmds s (.engine 3)).setReq (.engine 3) {}
  | 0x057 => (forgetCmds s .spt).setReq .spt { lasterr := (s.req .spt).lasterr }
  | 0x058 => (forgetCmds s .i2ca).setReq .i2ca { lasterr := (s.req .i2ca).lasterr }
  | 0x05A => (forgetCmds s .uart).setReq .uart { lasterr := (s.req .uart).lasterr }
  | _ => s

/-- An engine that enters OFF: RUN reads 0 (R303), its claims are released (R304). -/
def engineOff (s : State) (n : Nat) : State :=
  let a := 0x2001 + 0x40 * n
  let s := (s.setCode (uEng n) 0).setReg a (s.reg a &&& 0xFFFE)
  let e := s.eng n
  { s.setEng n { e with waiting := none, stopReq := false, xcpt := none } with
    irq := s.irq.release n }

/-- The inner state of a unit at its reset value (R240, R242). -/
def resetInner (s : State) (n : Nat) : State :=
  if 0x038 ≤ n ∧ n < 0x03C then engineOff (s.setEng (n - 0x038) {}) (n - 0x038)
  else if n < 0x040 then s.setPort (n - 0x03C) {}
  else if n < 0x048 then
    s.setTimer (n - 0x040) { out := bit (s.reg (0x5801 + 0x10 * (n - 0x040))) 6 }
  else if n < 0x04C then s.setLane (n - 0x048) {}
  else if n = uFloor then
    floorFresh s
  else if n = uChg then
    { s.setReg 0x1A01 (s.reg 0x1A01 &&& 0xFFFE) with
      chg := { vinOk := s.chg.vinOk, ingate := s.chg.ingate, pathOn := s.chg.pathOn, buckHold := s.chg.buckHold } }
  else if n = uSpt then { s with spt := {} }
  else if n = uI2ca then { s with i2ca := { live := s.i2ca.live, addr := s.i2ca.addr, scl := s.i2ca.scl, sda := s.i2ca.sda } }
  else if n = uI2cb then { s with i2cb := { live := s.i2cb.live, scl := s.i2cb.scl, sda := s.i2cb.sda } }
  else if n = uUart then { s with uart := { cfg := s.uart.cfg, div := s.uart.div } }
  else s

/-- The state in which a block reset ends (R239, R281): OFF; the SPI ports never use OFF and end in READY (R557; DEDUCED, log
entry 58). -/
def resetEnd (n : Nat) : BitVec 4 := if n = uSph ∨ n = uSpt then 1 else 0

/-- Unit n is a ring lane: what its link is to the ring is judged anew (R242, R247, R436). -/
def laneJudge (s : State) (n : Nat) : State := if 0x048 ≤ n ∧ n < 0x04C then ringJudge s else s

/-- The block of unit n is as its reset leaves it. -/
def resetBlock (s : State) (n : Nat) : State :=
  laneJudge ((resetReq (resetInner (resetRegs s n) n) n).arrive n (resetEnd n)) n

/-- BLOCK_RESET_DONE: the unit ends with FENCED set (R239, R240). -/
def blockReset (s : State) (n : Nat) : State := if (s.unit n).code = 0xE then resetBlock s n else s

/-- A fence and block reset as one transition: RECOVERING with BUSY until BLOCK_RESET_DONE (R239). A lane of a ring island that
is in reset reads OFF and has no reset to wait for (R431). -/
def fenceReset (s : State) (n : Nat) (src : BitVec 4) : State :=
  let u := s.unit n
  let s := if n = uChg && !u.fenced then chargeStopped s else s
  let s := s.accept n src fun u => { u with fenced := true, busy := true, code := 0xE }
  let s := if u.fenced then laneJudge s n else logFence (fenceEffects s n) n true
  if 0x048 ≤ n && n < 0x04C && !s.ring.live then resetBlock s n else s

/-- The state a released unit enters (R40 and the units' own chapters). -/
def releaseCode (s : State) (n : Nat) : BitVec 4 :=
  let en (a : Nat) (c : BitVec 4) : BitVec 4 := if bit (s.reg a) 0 then c else 0
  if n < 0x03C then 0
  else if n < 0x040 then en (0x1801 + 0x10 * (n - 0x03C)) 1
  else if n < 0x048 then en (0x5801 + 0x10 * (n - 0x040)) 1
  else if n < 0x04C then
    let a := 0x4040 + 0x10 * (n - 0x048)
    if !s.ring.live then 0 else en a (if bit (s.reg a) 1 then 5 else 1)
  else if n = uFloor then 1
  else if n = uChg then 0
  else if n < 0x056 then convCode s (n - 0x04E)
  else if n = uSph ∨ n = uSpt then 1
  else if n = uI2ca then en 0x5201 1
  else if n = uI2cb then en 0x5301 1
  else if n = uUart then en 0x5401 1
  else if (s.tap (n - 0x080)).isSome then 1
  else 0

/-- What a release does beside the transition (R225, R303, R396, R406, R525). -/
def releaseEffects (s : State) (n : Nat) : State :=
  if 0x038 ≤ n ∧ n < 0x03C then engineOff s (n - 0x038)
  else if n < 0x040 then
    slotKeys.foldl (fun s k => if k / 4 = n - 0x03C then
      s.setReg (xgenAddr k) (BitVec.setWidth 16 (s.unit (slotRail s k)).gen) else s) s
  else if n < 0x048 then s.setTimer (n - 0x040) { s.timer (n - 0x040) with run := false }
  else if n < 0x04C then ringJudge s
  -- STUCK is detected anew from SEEKING (R257, R494, R496; DEDUCED, log entry 69)
  else if n = uFloor then floorUntime (s.condOff 5 0)
  else if n = uChg then (s.setReg 0x1A01 (s.reg 0x1A01 &&& 0xFFFE)).orReg 0x1A20 1
  else if 0x04E ≤ n ∧ n < 0x056 then convServe ((boundTaps s (n - 0x04E)).foldl (fun s p => gapTap s p.1) s) (n - 0x04E)
  else if 0x080 ≤ n then gapTap s (n - 0x080)
  else s

-- temperatures

/-- DIE_WARN follows the comparison of the temperature reading with FLT_TWARN, which is exact on the reading (R232, R688). -/
def dieWarnJudge (s : State) : State := s.condSet 2 0 0 (decide ((s.reg 0x0805).toNat ≤ s.supply.dieC))

-- proof

/-- The end of a proof: RUN 0, LAST its kind, with its result (R635, R638, R639). A memory proof leaves recipe SRAM at
0x0000. -/
def proofEnds (s : State) (result : Nat) (aborted timeout : Bool) (entry : Nat) : State :=
  let kind := proofRun s
  let s := s.setReg 0x6800 (wd (4 * kind + 16 * result + flag aborted 6 + flag timeout 7 + 256 * entry))
  if kind = 1 then { s with sram := [] } else s

-- reset

/-- What an interrupted kiln leaves: its bits may be weak in either copy (R627). -/
def brokenKiln (s : State) : State :=
  match s.otp.kiln with
  | none => s
  | some k =>
    let f (i : Nat) : Word := Config.freeCellBits (s.fresh + i) &&& k.bits
    let up (m : Map Word) (w : Word) : Map Word := mset dZero m k.word (mget dZero m k.word ||| w)
    { s with
      fresh := s.fresh + 4
      otp := { s.otp with kiln := none, lowA := up s.otp.lowA (f 0), highA := up s.otp.highA (f 0 &&& f 1),
                          lowB := up s.otp.lowB (f 2), highB := up s.otp.highB (f 2 &&& f 3) } }

/-- Conditions that a chip reset does not end: supplies, temperatures, the charger's analogue conditions and the RTC
crystal. -/
def conditionStays (key : Nat) : Bool :=
  key < 0x100 || (0x200 ≤ key && key < 0x400) || key == 0x903

/-- The retention domain has not been initialised since the power-on reset, nor device time seeded (R79, R614). -/
def beforeLoad : Phase → Bool
  | .supply | .oscillator | .otpSensing | .retention => true
  | .load | .ready | .running | .testHold => false

/-- What a chip reset leaves of an LDO: the pull-down that its cold stop began goes on until the next switch-on (R160). -/
def ldosAfter (m : Map Ldo) : Map Ldo :=
  m.filterMap fun p => if p.2.disch then some (p.1, { disch := true }) else none

/-- A chip reset takes force: the cold stop, then everything outside the retention domain, the RTC island and the
timebase at its reset value (R25, R26, R62, R81, R251, R270, R296, R394, R524, R591, R627, R639). DIE_WARN is judged anew, by
FLT_TWARN's reset value (R232, R688). -/
def chipReset (s : State) (cause : RstCause) (logged : Bool := false) : State :=
  -- occurrences that wait are noted before the reset; before this start's RESET entry they, and the entry of the reset's
  -- cold stop, wait for it (R293, R296; log entry 28)
  let open_ := logStarted s
  let s := if open_ then s.occs.foldl noteOccurrence { s with occs := [] } else s
  let s := coldStop s causeReset 0x1F fun _ => false
  let s := if open_ && !logged then logPut s 0x02 false [resetStopWord] else s
  let due := if open_ then [] else s.boot.stopDue ++ [resetStopWord]
  let causeBit : Word := match cause with
    | .pin => 2
    | .soft => 4
    | .fault => 8
  let s := brokenKiln s
  -- a running proof ends with RESULT none and ABORTED (R639)
  let s := if proofRun s = 0 then s else proofEnds s 0 true false 0
  let fsrc := s.fsrc.filterMap fun p =>
    let x : FSrc := if conditionStays p.1 then p.2
      else { p.2 with present := false, transient := p.2.transient || (p.2.present && p.2.pend) }
    if x = {} then none else some (p.1, x)
  let t := State.reset
  dieWarnJudge <| { t with
    pending := s.pending
    fresh := s.fresh
    boot := { phase := .otpSensing, reset := some cause, fromPor := s.boot.fromPor && beforeLoad s.boot.phase, stopDue := due }
    regs := (s.regs.filter fun p => keptOverReset p.1)
    sram := s.sram
    clock := { s.clock with seed := [] }
    supply := s.supply
    ledger := s.ledger
    commitNo := s.commitNo
    log := s.log
    logSeq := s.logSeq
    logLost := s.logLost
    recsDue := s.recsDue
    store := s.store
    storeSeq := s.storeSeq
    seqTab := s.seqTab
    ldos := ldosAfter s.ldos
    stopN := s.stopN
    errN := s.errN
    fsrc := fsrc
    unack := s.unack
    errnHold := s.errnHold
    occs := s.occs
    extLvl := s.extLvl
    mea := { gen := s.mea.gen, extrefOk := s.mea.extrefOk, refReady := s.mea.refReady }
    ring := { live := s.ring.live, wrote := s.ring.wrote }
    chg := { vinOk := s.chg.vinOk, ingate := s.chg.ingate, pathOn := s.chg.pathOn, buckHold := s.chg.buckHold }
    gpioIn := s.gpioIn
    rtc := s.rtc
    otp := { s.otp with sensed := [], shown := [] }
    jtag := s.jtag }.orReg 0x002E causeBit

/-- The record of `body` goes to the slot after the newest (R152, R153, R259); of its words, those of `kept` are
written. -/
def storeRecord (s : State) (body : List Word) (kept : Nat → Bool) : State :=
  let count := (s.reg 0x0862).toNat
  let slot := if count = 0 then 0 else ((s.reg 0x0860).toNat + 1) % 64
  let seq := s.storeSeq + 1
  let ws := body.take 44 ++ [seq, 0, 0]
  let ws := ws ++ [crc16words ws]
  let st := (List.range 48).foldl (fun m i => if kept i then mset dZero m (slot * 48 + i) (ws.getD i 0) else m) s.store
  let s := { s with store := st, storeSeq := seq }
  (s.setReg 0x0860 (wd slot)).setReg 0x0862 (wd (min 64 (count + 1)))

/-- What a loss of VSYS leaves of the record that was to be written next (R154): nothing where its write had not begun,
and otherwise a record of which each word may or may not be the new one. -/
def tornRecord (s : State) : State :=
  match s.recsDue with
  | [] => s
  | body :: _ =>
    let f := s.fresh
    if Config.freeTorn f then { storeRecord s body (fun i => Config.freeTorn (f + 1 + i)) with fresh := f + 49 } else s.tick

/-- Power-on reset takes force: only OTP, the record store and, while VBAT_RTC lasts, the RTC island keep their
contents (R25, R75, R82, R154, R259, R279, R296, R591, R613). VBAT_OK is not the test of that: below its threshold
VBAT_RTC may still be in its operating range (R258). The RTC's switchover threshold lies above that of the reset, so the RTC has
switched over by then (R609, R650). -/
def powerOnReset (s : State) : State :=
  let s := tornRecord (brokenKiln s)
  let backed := s.supply.vbatOk || Config.freeVbat s.fresh
  let s := s.tick
  let t := State.reset
  let t := { t with
    pending := s.pending
    fresh := s.fresh
    regs := s.regs.filter fun p => keptOverPor p.1 || (backed && 0x5900 ≤ p.1 && p.1 < 0x5A00)
    supply := { t.supply with dieC := s.supply.dieC, vbatOk := s.supply.vbatOk, revLatch := backed && s.supply.revLatch }
    store := s.store
    storeSeq := s.storeSeq
    stopN := { low := s.stopN.low }
    errN := { low := s.errN.low }
    extLvl := s.extLvl
    chg := { vinOk := s.chg.vinOk, pathOn := s.chg.pathOn }
    gpioIn := s.gpioIn
    ring := { wrote := s.ring.wrote }
    rtc := if backed then { s.rtc with lock := true, onbat := true } else {}
    otp := { s.otp with sensed := [], shown := [] } }
  if backed && !s.rtc.onbat then t.orReg 0x5924 8 else t

end Sys2Proof.Machine
end

