-- ==== Sys2Proof/Machine/Charger.lean ====
section
/-! DEFINITION. The charger and the power path (14_charger_and_power_path.md; abuse detections of
07_fault_handling.md, R257). -/

namespace Sys2Proof.Machine

open Sys2Proof

/-- Cells in series (CHG_CFG.NCELL + 1). -/
def cells (s : State) : Nat := field (s.reg 0x1A01) 4 1 + 1

/-- At least `mv` millivolts per cell; CHG_VBAT is in units of 0.5 mV (R511). -/
def cellAtLeast (s : State) (mv : Nat) : Bool := 2 * mv * cells s ≤ (s.reg 0x1A18).toNat

/-- The charger acts: not fenced and not in a block reset (R242). -/
def chgActs (s : State) : Bool := !(s.unit uChg).fenced && (s.unit uChg).code != 0xE

def chgCode (s : State) : Nat := (s.unit uChg).code.toNat

/-- TMIN and TMAX in units of 0.0625 °C. -/
def chgTmin (s : State) : Int := ((s.reg 0x1A0A).setWidth 8).toInt * 16
def chgTmax (s : State) : Int := (field (s.reg 0x1A0A) 15 8 : Int) * 16

def tbat (s : State) : Int := (s.reg 0x1A1A).toInt

/-- The tracking of the maximum power point starts anew: no second of it has been gathered (R520). -/
def mpptFresh (c : Chg) (scan : Bool) : Chg := { c with scan := scan, pSum := 0, pN := 0, lastP := none }

/-- The charger moves to another state code: no transition, and CHG_EVT.PHASE (R510). An entry to FAST starts its counts; from
SUSPENDED, where the current was reduced to nothing, −ΔV waits for the current to hold (R513, R515). With INMODE 1 an entry to
PRECHARGE, FAST or TOPOFF starts a scan (R520). -/
def chgEnter (s : State) (c : BitVec 4) : State :=
  let old := (s.unit uChg).code
  let s := if old = c then s else s.orReg 0x1A20 1
  let s := s.setCode uChg c
  let charging := c == 3 || c == 4 || c == 5 || c == 6
  let scan := field (s.reg 0x1A01) 9 8 == 1 && (c == 3 || c == 4 || c == 5)
  let s := { s with chg := mpptFresh { s.chg with ilimVin := charging && s.chg.ilimVin, vmaxCheck := 0 } scan }
  if c = 4 then
    { s with chg := { s.chg with phaseT := 0, peakSet := false, dvRun := 0, fullRun := if old = 8 then 0 else 600 } }
  else s

/-- A cause of R518 that is present now: 1 thermistor, 2 cold, 3 hot at qualify, 4 DIE_SHUT, 0 none. -/
def suspCause (s : State) (qualify : Bool) : BitVec 3 :=
  if s.present 3 1 || s.present 3 2 then 1
  else if tbat s < chgTmin s then 2
  else if qualify && chgTmax s - 80 ≤ tbat s then 3
  else if s.present 2 1 then 4
  else 0

/-- ENDED is set: FAST or PRECHARGE has ended (R512). -/
def cycleEnded (s : State) (reason : BitVec 4) : State :=
  let s := (s.setReg 0x1A1F 1).orReg 0x1A20 2
  { s with chg := { s.chg with reason := reason, inputGone := 0 } }

/-- A new cycle: ENDED and CHG_FASTMIN are cleared (R512). -/
def cycleNew (s : State) : State :=
  let s := (s.setReg 0x1A1F 0).setReg 0x1A1E 0
  { s with chg := { s.chg with fastT := 0, inputGone := 0 } }

/-- WAITING with input and battery present (R511, R512). -/
def chgWaiting (s : State) : State :=
  if !(s.chg.ingate && s.chg.batp) then s
  else if s.reg 0x1A1F = 0 then chgEnter s 2
  else if 600 ≤ s.chg.inputGone && !cellAtLeast s (s.reg 0x1A0F).toNat then chgEnter (cycleNew s) 2
  else if s.reg 0x1A05 ≠ 0 then chgEnter s 6
  else s

/-- What the charger does at once in its present state: input absent (R505, R511), a cause of R518, or WAITING that may
be left. While a VMAX end is judged nothing else decides (R516). -/
def chgJudge (s : State) : State :=
  if !chgActs s || 0 < s.chg.vmaxCheck then s
  else
    let c := chgCode s
    if 2 ≤ c ∧ c ≤ 6 then
      if !s.chg.ingate then chgEnter s 1
      else
        let cause := suspCause s (c == 2)
        if cause ≠ 0 then
          let s := chgEnter { s with chg := { s.chg with susp := cause, left := BitVec.ofNat 4 c } } 8
          s.orReg 0x1A20 0x10
        else s
    else if c = 1 then
      let s := chgWaiting s
      -- a QUALIFY or MAINT just entered is judged too
      let c := chgCode s
      let cause := suspCause s (c == 2)
      if (c = 2 ∨ c = 6) ∧ cause ≠ 0 then
        (chgEnter { s with chg := { s.chg with susp := cause, left := BitVec.ofNat 4 c } } 8).orReg 0x1A20 0x10
      else s
    else s

/-- The phase after a termination of FAST (R511). -/
def afterFast (s : State) : BitVec 4 :=
  if bit (s.reg 0x1A01) 7 then 5 else if s.reg 0x1A05 ≠ 0 then 6 else 7

/-- FAST ends by a termination (R511 to R514). -/
def fastEnds (s : State) (reason : BitVec 4) : State :=
  let s := cycleEnded s reason
  chgEnter s (afterFast s)

/-- The end of a second: −ΔV (R513, R515). `sum` is ten times VB1. -/
def secondEnd (s : State) (sum : Nat) : State :=
  let c := s.chg
  if !chgActs s ∨ chgCode s ≠ 4 ∨ 0 < c.vmaxCheck then s
  else
    let peak := if c.peakSet then max c.peak sum else sum
    let shown := roundFree (Config.freeRoundUp s.fresh) peak 10
    let s := ({ s with chg := { s.chg with peakSet := true, peak := peak } }.setReg 0x1A1C (BitVec.ofInt 16 shown)).tick
    let cfg := s.reg 0x1A01
    let armed := field (s.reg 0x1A07) 7 0 * 600 ≤ c.phaseT
    if bit cfg 5 && armed && c.fullRun == 600 then
      let run := if sum + 10 * field (s.reg 0x1A06) 4 0 * cells s ≤ peak then c.dvRun + 1 else 0
      if 3 ≤ run then fastEnds s 1 else { s with chg := { s.chg with dvRun := run } }
    else { s with chg := { s.chg with dvRun := 0 } }

/-- The end of a 10 s interval: dT/dt (R514, R515). -/
def intervalEnd (s : State) (sum : Int) : State :=
  let l := (sum :: s.chg.tb10).take 7
  let s := { s with chg := { s.chg with tb10 := l } }
  let armed := field (s.reg 0x1A07) 7 0 * 600 ≤ s.chg.phaseT
  match l with
  | [t0, _, _, _, _, _, t6] =>
    if chgActs s ∧ chgCode s = 4 ∧ s.chg.vmaxCheck = 0 ∧ bit (s.reg 0x1A01) 6 ∧ armed ∧
        400 * (field (s.reg 0x1A06) 11 8 : Int) ≤ t0 - t6 then
      fastEnds s 2
    else s
  | _ => s

/-- The averages of R508 with one more reading. -/
def chgAverages (s : State) : State :=
  let c := s.chg
  let vSum := c.vSum + (s.reg 0x1A18).toNat
  let tSum := c.tSum + tbat s
  let s := if c.vN + 1 < 10 then { s with chg := { s.chg with vSum := vSum, vN := c.vN + 1 } }
    else secondEnd { s with chg := { s.chg with vSum := 0, vN := 0 } } vSum
  if c.tN + 1 < 100 then { s with chg := { s.chg with tSum := tSum, tN := c.tN + 1 } }
  else intervalEnd { s with chg := { s.chg with tSum := 0, tN := 0 } } tSum

/-- Time in FAST: CHG_FASTMIN, the hold-off, and the time the current has held at CHG_ICHG (R515, R517). -/
def fastTime (s : State) (limited : Bool) : State :=
  if chgCode s ≠ 4 ∨ 0 < s.chg.vmaxCheck then s
  else
    let c := s.chg
    let reduced := limited || s.present 2 0 || c.scan
    let run := if reduced then 0 else min 600 (c.fullRun + 1)
    let again := c.fullRun < 600 && run = 600
    let whole := 600 ≤ c.fastT + 1
    let s := { s with chg := { c with
      phaseT := c.phaseT + 1, fastT := if whole then 0 else c.fastT + 1, fullRun := run
      peakSet := c.peakSet && !again, dvRun := if reduced || again then 0 else c.dvRun } }
    if whole then s.setReg 0x1A1E (wd (satInc (s.reg 0x1A1E).toNat 0xFFFF)) else s

/-- The limits of R516 in PRECHARGE, FAST and TOPOFF. After a VMAX end the buck is off and the pack is looked for over
2.0 s. -/
def chgLimits (s : State) : State :=
  let c := chgCode s
  if ¬(3 ≤ c ∧ c ≤ 5) ∨ 0 < s.chg.vmaxCheck then s
  else if chgTmax s ≤ tbat s then
    let s := if c = 5 then { s with chg := { s.chg with reason := 3 } } else cycleEnded s 3
    chgEnter (s.condOn 3 3 0) 0xF
  else if 3600 * cells s < (s.reg 0x1A18).toNat then
    { s with chg := { s.chg with vmaxCheck := 20, reason := 6, scan := false, ilimVin := false } }
  else s

/-- A reading within 2.0 s of a VMAX end (R516): WAITING where the pack has gone, FAULTED with BAT_OV at the end. -/
def vmaxJudge (s : State) (ntcHigh : Bool) : State :=
  let k := s.chg.vmaxCheck
  if k = 0 then s
  else if !s.chg.batp || ntcHigh then chgEnter s 1
  else if k = 1 then
    let s := if chgCode s = 5 then s else cycleEnded s 6
    (chgEnter s 0xF).occur 3 7 0
  else { s with chg := { s.chg with vmaxCheck := k - 1 } }

/-- The natural logarithm of a / b in units of 2^-40, for a and b above 0: halvings first, then the series of artanh. Its error
is below 2^-35. -/
def lnFix (a b : Nat) : Int :=
  let p := a * 2 ^ (Nat.log2 b - Nat.log2 a)
  let q := b * 2 ^ (Nat.log2 a - Nat.log2 b)
  let y : Int := Int.fdiv (((p : Int) - q) * 1099511627776) (p + q)
  let x := (List.range 16).foldl (fun (x : Int × Int) i =>
    (x.1 + Int.fdiv x.2 (2 * i + 1), Int.fdiv (Int.fdiv (x.2 * y) 1099511627776 * y) 1099511627776)) (0, y)
  ((Nat.log2 a : Int) - Nat.log2 b) * 762123384786 + 2 * x.1

/-- A value in a signed 16-bit register, rounded either way; a free value where it does not fit. -/
def putReading (s : State) (a : Nat) (num den : Int) : State :=
  let x := roundFree (Config.freeRoundUp s.fresh) num den
  (s.setReg a (if den ≤ 0 ∨ x < -32768 ∨ 32767 < x then Config.freeReading s.fresh else BitVec.ofInt 16 x)).tick

/-- CHG_TBAT, in units of 0.0625 °C (R507), from V(BAT_NTC) and V(NTC_BIAS) in µV: 1/298.15 K is 20/5963. The formula is
evaluated to a precision well below the register's (DESIGN CHOICE, log entry 5: its rounding is free). -/
def putTbat (s : State) (ntc bias : Nat) : State :=
  if ntc = 0 ∨ bias ≤ ntc then (s.setReg 0x1A1A (Config.freeReading s.fresh)).tick
  else
    let b : Int := (s.reg 0x1A0E).toNat
    let den := 20 * 1099511627776 * b + 5963 * lnFix ntc (bias - ntc)
    putReading s 0x1A1A (160 * 5963 * 1099511627776 * b - 43704 * den) (10 * den)

/-- A charge phase in which the maximum power point is tracked (R520). -/
def mpptPhase (s : State) : Bool :=
  chgActs s && field (s.reg 0x1A01) 9 8 = 1 && (chgCode s = 3 || chgCode s = 4 || chgCode s = 5) && s.chg.vmaxCheck = 0

/-- The regulation voltage held to its range (R520). -/
def clampVin (x : Int) : Word := if x < 4500 then 4500 else if x > 28000 then 28000 else BitVec.ofInt 16 x

/-- CHG_VINREG_LIVE: with INMODE 0 it is CHG_VINREG (R519). -/
def vinregLive (s : State) : Word := if field (s.reg 0x1A01) 9 8 = 0 then s.reg 0x1A0B else s.reg 0x1A1D

/-- The charge current is reduced to hold CHG_VIN up (R519, R520): it must be where CHG_VIN reads below the regulation voltage,
it need not be where it reads above, and at that voltage `limited` says whether it is what holds CHG_VIN there. -/
def vinHeld (s : State) (vin : Word) (limited : Bool) : Bool :=
  chgActs s && within (chgCode s) 3 6 && s.chg.vmaxCheck == 0 &&
    (vin.toNat < (vinregLive s).toNat || (limited && vin == vinregLive s))

/-- One power reading of the second, while the power point is tracked (R520). -/
def powerAdd (s : State) : State :=
  if s.chg.scan || !mpptPhase s then s
  else { s with chg := { s.chg with
    pSum := s.chg.pSum + (s.reg 0x1A18).toNat * (s.reg 0x1A19).toInt, pN := s.chg.pN + 1 } }

/-- MONITOR_READING (R507 to R519, R527): CHG_VBAT and CHG_VIN, the voltage on the sense resistor in µV, V(BAT_NTC) and
V(NTC_BIAS) in µV, and `limited` where CHG_VIN stands at the regulation voltage because the current is reduced. CHG_IBAT is the
voltage over CHG_RSNS, in mA. A fenced charger does not act, but the readings, their averages and the time without input go
on. -/
def monitorDo (s : State) (vbat vin : Word) (vsns : Int) (ntc bias : Nat) (limited : Bool) : State :=
  let low := (s.reg 0x1A10).toNat
  let was := cellAtLeast s low
  let ntcHigh := 19 * bias < 20 * ntc
  let s := (s.setReg 0x1A18 vbat).setReg 0x1A1B vin
  let s := powerAdd (putTbat (putReading s 0x1A19 (10 * vsns) (field (s.reg 0x1A0D) 9 0)) ntc bias)
  let s := { s with chg := { s.chg with batp := cellAtLeast s 100 } }
  let s := if was && !cellAtLeast s low && !s.chg.ingate then s.orReg 0x1A20 0x20 else s
  let s := if tbat s < chgTmax s then s.condOff 3 3 else s
  let gone := if s.reg 0x1A1F = 0 then 0 else if s.chg.ingate then (if s.chg.inputGone = 600 then 600 else 0)
    else min 600 (s.chg.inputGone + 1)
  let held := vinHeld s vin limited
  let s := { s with chg := { s.chg with inputGone := gone, ilimVin := held } }
  if !chgActs s then chgAverages s
  else if 0 < s.chg.vmaxCheck then vmaxJudge (chgAverages s) ntcHigh
  else
    let s := chgLimits (chgAverages (fastTime s held))
    chgJudge (if chgCode s = 3 ∧ s.chg.vmaxCheck = 0 ∧ cellAtLeast s 1000 then chgEnter s 4 else s)

/-- The input pair turns on or off, and VIN_OK follows (R503, R523). -/
def inputPath (s : State) (vinMv vsysMv : Nat) : State :=
  let ok := 4500 ≤ vinMv && vinMv ≤ 28500
  let s := if s.chg.vinOk == ok then s else s.orReg 0x1A20 4
  let s := if 28500 < vinMv then s.condOn 3 5 0 else if vinMv < 28000 then s.condOff 3 5 else s
  let drop : Int := (vinMv : Int) - vsysMv
  let on := ok && !s.present 3 5 && (if s.chg.ingate then 5 ≤ drop else 20 ≤ drop)
  chgJudge { s with chg := { s.chg with vinOk := ok, ingate := on } }

/-- The battery MOSFET is commanded on or off; PATH_FLT is present only while it is on (R523). -/
def pathSet (s : State) (on : Bool) : State :=
  let s := { s with chg := { s.chg with pathOn := on } }
  if on then s else s.condOff 3 6

/-- The battery MOSFET turns on or off (R504), but for the hold of a reversed battery (R257). -/
def batteryPath (s : State) (batMv sysMv : Nat) : State :=
  let diff : Int := (batMv : Int) - sysMv
  let on := if 20 < diff then true else if diff < 5 then false else s.chg.pathOn
  pathSet s (on && !s.chg.buckHold)

/-- The end of QUALIFY (R511). -/
def qualifyDone (s : State) : State :=
  if chgActs s && chgCode s = 2 then chgJudge (chgEnter s (if cellAtLeast s 900 then 4 else 3)) else s

/-- Faulted by a timer (R511, R517). -/
def safetyTimer (s : State) (reason : BitVec 4) (det : Byte) : State := (chgEnter (cycleEnded s reason) 0xF).occur 3 4 det

/-- Every cause of a suspension has been absent for 1.0 s (R511, R518). -/
def suspendOver (s : State) : State :=
  if chgActs s && chgCode s = 8 && suspCause s (s.chg.left == 2) = 0 then
    let s := { s with chg := { s.chg with susp := 0 } }
    chgJudge (chgEnter s s.chg.left)
  else s

/-- One perturbation (R520): the direction turns where the mean power fell by more than 0.5 %. -/
def mpptStepDo (s : State) : State :=
  if !mpptPhase s || s.chg.scan then s
  else
    let c := s.chg
    let turn := match c.lastP with
      | some (p, n) => 1000 * c.pSum * n < 995 * p * c.pN
      | none => false
    let up := c.dirUp != turn
    let d : Int := field (s.reg 0x1A0C) 11 8 * 50
    let v : Int := (s.reg 0x1A1D).toNat
    { s with chg := { c with dirUp := up, lastP := some (c.pSum, c.pN), pSum := 0, pN := 0 } }.setReg 0x1A1D (clampVin (if up then v + d else v - d))

/-- CHG_RESTART (R528, R529): ARG0 is the expected GEN. -/
def opChgRestart (s : State) (r : Req) (a : Nat → Word) : State × Word × List Word :=
  let u := s.unit uChg
  let c := u.code.toNat
  let code := firstFail [(resBits (a 0) 0x00FF, eReserved), (u.fenced, eFenced), (!reqOwns r u, eOwner),
    ((a 0).setWidth 8 ≠ u.gen, eStale), (u.busy, eBusy),
    (!(c = 1 || c = 7 || c = 6 || c = 0xF) || s.present 3 0 || s.present 3 3 || s.present 2 1, eState)]
  if code ≠ eOk then (s, code, [])
  else
    let s := cycleNew (s.accept uChg r.src fun u => u)
    let s := chgEnter s 1
    let w := (s.unit uChg).word
    (chgJudge s, eOk, [w])

-- the events of this chapter

/-- MONITOR_READING (R508). -/
def execMonitorReading (vbat vin : Word) (vsns : Int) (ntc bias : Nat) (limited : Bool) (s : State) :
    Host.Outcome State Fault Refusal := done (monitorDo s vbat vin vsns ntc bias limited)

/-- QUALIFY_END (R511). -/
def execQualifyEnd (s : State) : Host.Outcome State Fault Refusal := done (qualifyDone s)

/-- PRECHARGE_TIMEOUT (R511). -/
def execPrechargeTimeout (s : State) : Host.Outcome State Fault Refusal :=
  done (if chgActs s && chgCode s = 3 && s.chg.vmaxCheck = 0 then safetyTimer s 5 1 else s)

/-- FAST_TIMEOUT (R517). -/
def execFastTimeout (s : State) : Host.Outcome State Fault Refusal :=
  done (if chgActs s && chgCode s = 4 && s.chg.vmaxCheck = 0 &&
      10 * field (s.reg 0x1A08) 7 0 ≤ (s.reg 0x1A1E).toNat then safetyTimer s 4 0 else s)

/-- TOPOFF_END (R511). -/
def execTopoffEnd (s : State) : Host.Outcome State Fault Refusal :=
  done (if chgActs s && chgCode s = 5 && s.chg.vmaxCheck = 0 then chgEnter s (if s.reg 0x1A05 ≠ 0 then 6 else 7) else s)

/-- SUSPEND_END (R511). -/
def execSuspendEnd (s : State) : Host.Outcome State Fault Refusal := done (suspendOver s)

/-- MPPT_SCAN (R520). -/
def execMpptScan (s : State) : Host.Outcome State Fault Refusal :=
  done (if mpptPhase s then { s with chg := mpptFresh s.chg true } else s)

/-- CHG_VIN at the highest power of a scan's samples of CHG_VBAT, CHG_IBAT and CHG_VIN (R520); the earliest of equal ones. -/
def scanVin (l : List (Word × Word × Word)) : Option Word :=
  (l.foldl (fun (b : Option (Int × Word)) x =>
    let p : Int := x.1.toNat * x.2.1.toInt
    match b with
    | some (q, v) => if q < p then some (p, x.2.2) else some (q, v)
    | none => some (p, x.2.2)) none).map (·.2)

/-- The scan ends (R520). -/
def scanEnd (s : State) (l : List (Word × Word × Word)) : State :=
  if s.chg.scan then
    let s := { s with chg := mpptFresh s.chg false }
    let s := match scanVin l with
      | some v => s.setReg 0x1A1D (clampVin v.toNat)
      | none => s
    s.orReg 0x1A20 8
  else s

/-- SCANDONE (R520). -/
def execScandone (samples : List (Word × Word × Word)) (s : State) : Host.Outcome State Fault Refusal :=
  done (scanEnd s samples)

/-- MPPT_STEP (R520). -/
def execMpptStep (s : State) : Host.Outcome State Fault Refusal := done (mpptStepDo s)

/-- BATTERY_ABSENT_TIMEOUT (R512). -/
def execBatteryAbsentTimeout (s : State) : Host.Outcome State Fault Refusal :=
  done (if s.chg.batp then s else cycleNew s)

/-- INPUT_PATH_CHANGE (R503). -/
def execInputPathChange (vinMv vsysMv : Nat) (s : State) : Host.Outcome State Fault Refusal :=
  done (inputPath s vinMv vsysMv)

/-- BATTERY_PATH_CHANGE (R504). -/
def execBatteryPathChange (batMv sysMv : Nat) (s : State) : Host.Outcome State Fault Refusal :=
  done (batteryPath s batMv sysMv)

/-- VIN_OV (R503, R523). -/
def execVinOv (s : State) : Host.Outcome State Fault Refusal :=
  let s := if s.chg.vinOk then s.orReg 0x1A20 4 else s
  done (chgJudge ({ s with chg := { s.chg with vinOk := false, ingate := false } }.condOn 3 5 0))

/-- PATH_FLT with its detail, 0x01 or 0x02 (R523): while the battery MOSFET is commanded on. -/
def execPathFlt (detail : Byte) (s : State) : Host.Outcome State Fault Refusal :=
  done (if s.chg.pathOn && (detail == 1 || detail == 2) then s.condOn 3 6 detail else s)

/-- BAT_REV (R257). -/
def execBatRev (s : State) : Host.Outcome State Fault Refusal :=
  done ((pathSet { s with chg := { s.chg with buckHold := true } } false).condOn 3 0 0)

/-- BAT_REV_HOLD_END (R257): the reversal has been absent for 1.0 s. -/
def execBatRevHoldEnd (s : State) : Host.Outcome State Fault Refusal :=
  done (if s.present 3 0 then s else { s with chg := { s.chg with buckHold := false } })

/-- NTC_OPEN (R257, R518). -/
def execNtcOpen (s : State) : Host.Outcome State Fault Refusal := done (chgJudge (s.condOn 3 1 0))

/-- NTC_SHORT (R257, R518). -/
def execNtcShort (s : State) : Host.Outcome State Fault Refusal := done (chgJudge (s.condOn 3 2 0))

end Sys2Proof.Machine
end

