-- ==== Sys2Proof/Machine/Faults.lean ====
section
/-! DEFINITION. The fault collector (07_fault_handling.md): taking an occurrence, acknowledgement, ERR_N, the record
store, supplies and temperatures, and the events of that chapter. -/

namespace Sys2Proof.Machine

open Sys2Proof

/-- ERR_N is driven while a class holds it and ERRN_EN is 1; it is released by ERR_N_RELEASE only (R255). -/
def errnUpdate (s : State) : State :=
  if bit (s.reg 0x0800) 0 && s.errnHold ≠ 0 then { s with errN := { s.errN with drv := true } } else s

/-- An NMI to engine n (R235): every engine that is not fenced gets it. -/
def raiseNmi (s : State) (n : Nat) : State :=
  if (s.unit (uEng n)).fenced then s
  else s.setEng n { s.eng n with nmipend := true, nmiheld := (s.eng n).nmiheld || (s.eng n).nmiact }

/-- The collector takes an occurrence: the actions of R234 in order, as far as the effective level reaches (R235,
R236). -/
def takeOccurrence (s : State) (o : Occ) : State :=
  let eff := effLevel s o.cls o.src
  let s := noteOccurrence s o
  -- the cold stop of a chip reset is this occurrence's too: its entry follows the FAULT entry (R293)
  let s := if eff ≥ 6 then logPut s 0x02 false [resetStopWord] else s
  -- the unit's sources are held until the class is claimed or acknowledged (R286)
  let s := if eff ≥ 1 ∧ o.hold ≠ 0 then
      { s with irq := { s.irq with holds := s.irq.holds ++ [(o.cls, o.hold)] } } else s
  let s := match o.unit with
    | some n =>
      if canFence n ∧ eff ≥ 4 then fenceReset s n srcFault
      else if canFence n ∧ eff ≥ 3 then fenceUnit s n srcFault
      else s
    | none => s
  -- an exception of an engine waits for this (R335)
  let s := if o.cls = 7 ∧ ¬o.inj then
      let n := o.src / 8
      let e := s.eng n
      let mine : Bool := match e.xcpt with
        | some (k, false) => k.src == some (o.src % 8)
        | _ => false
      if mine then s.setEng n { e with xcpt := e.xcpt.map fun p => (p.1, true) } else s
    else s
  let s := if eff ≥ 2 then
      [0, 1, 2, 3].foldl (fun s n => if bit (s.reg 0x0800) (4 + n) then raiseNmi s n else s) s
    else s
  let s := errnUpdate s
  if eff ≥ 6 then chipReset s .fault true else s

/-- FAULT_OCCURRENCE: the collector takes the k-th waiting occurrence (R18, R245). Before the start has written its
RESET entry it takes none (R296). -/
def faultTake (s : State) (k : Nat) : State :=
  if !logStarted s then s
  else match s.occs[k]? with
  | none => s
  | some o => takeOccurrence { s with occs := s.occs.eraseIdx k } o

-- acknowledgement

/-- The fault acknowledgement of one rail or LDO in FAULTED (R122, R250). -/
def ackRail (src : BitVec 4) (s : State) (k : Nat) : State :=
  if (s.unit k).code = 0xF then
    let s := s.accept k src fun u => { u with code := 0, busy := false }
    if k < 16 then (s.orReg (railBase k + 0x11) 2).changed k fun _ => false else s
  else s

/-- Class c is acknowledged (R248). -/
def ackClass (s : State) (c : Nat) : State :=
  let s := (List.range 8).foldl (fun s i => s.setReg (recAddr c + i) 0) s
  let fs := s.fsrc.filterMap fun p =>
    let x : FSrc := if p.1 / 256 = c then { p.2 with pend := false, transient := false } else p.2
    if x = {} then none else some (p.1, x)
  { s with fsrc := fs, unack := s.unack &&& ~~~(1#10 <<< c), errnHold := s.errnHold &&& ~~~(1#10 <<< c),
           irq := { s.irq with
             holds := s.irq.holds.filter fun h => h.1 ≠ c
             saved := s.irq.saved.map fun v => { v with holds := v.holds.filter fun h => h.1 ≠ c } } }

/-- A write of FLT_ACK (R248 to R250, R286). -/
def fltAckDo (s : State) (r : Req) (w : Word) : State :=
  let s := (List.range 10).foldl (fun s c => if bit w c then ackClass s c else s) s
  let s := logPut s 0x07 false [w, wd r.idx]
  if bit w 1 then railCodes.foldl (ackRail r.src) s else s

/-- ERR_N_RELEASE: no class holds ERR_N and ERRHOLD has passed (R255). -/
def errnRelease (s : State) : State :=
  if s.errnHold = 0 || !bit (s.reg 0x0800) 0 then { s with errN := { s.errN with drv := false } } else s

-- mailbox operations

/-- FLT_INJECT (R262, R263). Class RAIL and source DIE_SHUT are refused. -/
def opFltInject (s : State) (a0 a1 : Word) : State × Word × List Word :=
  let cls := field a0 11 8
  let src := field a0 7 0
  let c := firstFail [(resBits a0 0x0FFF || resBits a1 0x00FF, eReserved),
    ((srcInfo cls src).isNone || cls = 1 || (cls = 2 && src = 1), eRange)]
  if c ≠ eOk then (s, c, [])
  else (s.occur cls src (a1.setWidth 8) none true, eOk, [])

/-- FLT_STORE_ERASE (R262). -/
def opStoreErase (s : State) (key : Word) : State × Word × List Word :=
  let c := firstFail [(key ≠ 0x5E7A, eRange), (!s.recsDue.isEmpty, eBusy)]
  if c ≠ eOk then (s, c, [])
  else (({ s with store := [] }.setReg 0x0860 0).setReg 0x0862 0, eOk, [])

-- the record store

/-- LAST_FAULT_RECORD_WRITE: the oldest record due goes to the slot after the newest (R151, R152, R259). `verified` is
the outcome of its write verification; a failed one is a STORE_FAIL occurrence. -/
def recordWrite (s : State) (verified : Bool) : State :=
  match s.recsDue with
  | [] => s
  | body :: rest =>
    let s := storeRecord { s with recsDue := rest } body fun _ => true
    if verified then s else s.occur 8 4 0

-- supplies and temperatures

/-- A comparator of a rising threshold, in mV, whose trip point lies between `lo` and `hi`: an input within its tolerance may
be judged either way (R688), a free value. -/
def riseTrips (fresh v lo hi : Nat) : Bool := hi ≤ v || (lo ≤ v && Config.freeTrip fresh)

/-- A supply of `mv` mV may be judged outside its range: beyond the threshold of the direction that makes the SUPPLY condition
present, tolerance included, or outside its window, whose edges are within it (R650, R688). -/
def supplyTrips (src mv : Nat) : Bool :=
  match src with
  | 0 => mv ≤ 4400
  | 1 => 28500 ≤ mv
  | 3 => !within mv 1710 1890
  | 4 => !within mv 600 900
  | 5 => !within mv 830 970
  | 6 => !within mv 1110 1290
  | 7 => mv ≤ 1500
  | _ => false

/-- A supply of `mv` mV may be judged within its range again (R650, R688). -/
def supplyGood (src mv : Nat) : Bool :=
  match src with
  | 0 => 4350 ≤ mv
  | 1 => mv ≤ 30000
  | 3 => within mv 1710 1890
  | 4 => within mv 600 900
  | 5 => within mv 830 970
  | 6 => within mv 1110 1290
  | 7 => 1450 ≤ mv
  | _ => true

/-- SUPPLY_FAULT: a SUPPLY condition becomes present (R232, R650; GLB_SUP_ST). SER_LOSS and SERA_LOSS are faults only while
the ring island is out of reset. -/
def supplyFault (s : State) (src mv : Nat) : State :=
  if !supplyTrips src mv then s
  else match src with
  | 0 | 1 => (kilnWatch { s with supply := { s.supply with vsysOk := false } }).condOn 0 src 0
  | 3 => { s with supply := { s.supply with aonOk := false } }.condOn 0 3 0
  | 4 => { s with supply := { s.supply with coreOk := false } }.condOn 0 4 0
  | 5 =>
    let live := s.ring.live
    let s := { s with supply := { s.supply with serOk := false } }
    if live then (ringDown s).condOn 0 5 0 else s
  | 6 =>
    let live := s.ring.live
    let s := { s with supply := { s.supply with seraOk := false } }
    if live then (ringDown s).condOn 0 6 0 else s
  | 7 => { s with supply := { s.supply with vbatOk := false } }.condOn 0 7 0
  | _ => s

/-- The junction temperature reads `c` °C. At 110 °C, the end of the tolerance of the falling shutdown threshold, DIE_SHUT is over
(R664, R688). -/
def dieReads (s : State) (c : Int) : State :=
  let s := dieWarnJudge (kilnWatch { s with supply := { s.supply with dieC := c } })
  if c ≤ 110 then s.condOff 2 1 else s

/-- DIE_SHUT (R237, R238, R664): a cold stop at detection and the occurrence; the charger is suspended (R518). The shutdown
threshold is 125 °C ± 5 K, and it may trip anywhere within that (R688). -/
def dieShutDo (s : State) (c : Int) : State :=
  if s.present 2 1 || c < 120 then s
  else
    let s := coldStop (dieReads s c) causeThermal 0x1F fun _ => false
    chgJudge (kilnWatch (s.condOn 2 1 0 (some (s.reg 0x1604))))

/-- DIE_WARN: the junction temperature reads `c` °C. From 130 °C, the end of the shutdown threshold's tolerance, that is thermal
shutdown too (R664). -/
def dieWarnDo (s : State) (c : Int) : State := if 130 ≤ c then dieShutDo (dieReads s c) c else dieReads s c

/-- The measured quantity no longer makes the condition (R590, R650, R664): a supply in mV, the junction temperature in °C;
TB_LOCK stays while LOCKEN is 1 and LOCKED is 0. -/
def conditionEnds (s : State) (cls src : Nat) (val : Int) : Bool :=
  match cls, src with
  | 0, _ => 0 ≤ val && supplyGood src val.toNat
  | 2, 0 => val < (s.reg 0x0805).toNat
  | 2, 1 => val ≤ 120
  | 9, 1 => !bit (s.reg 0x5890) 0 || bit (s.reg 0x5891) 0
  | _, _ => true

/-- A comparator of a falling threshold, in mV, as `riseTrips` is one of a rising one. -/
def fallTrips (fresh v lo hi : Nat) : Bool := v ≤ lo || (v ≤ hi && Config.freeTrip fresh)

/-- VSYS has left one side of its range and stands at `mv`: it is good unless it has gone beyond the other side's threshold, where
that side's condition begins (R232, R650). -/
def vsysJudge (s : State) (src mv : Nat) : State :=
  let beyond := if src = 0 then riseTrips s.fresh mv 28500 30500 else fallTrips s.fresh mv 4200 4400
  let s := s.tick
  let s := if beyond then s.condOn 0 (1 - src) 0 else s
  { s with supply := { s.supply with vsysOk := !(s.present 0 0 || s.present 0 1) } }

/-- FAULT_CONDITION_CLEAR: a condition source becomes absent (R247), and the live state it came from is good again. -/
def conditionClear (s : State) (cls src : Nat) (val : Int) : State :=
  if !s.present cls src || cls = 4 || cls = 5 || !conditionEnds s cls src val then s
  else
    let s := s.condOff cls src
    match cls, src with
    | 0, 0 | 0, 1 => vsysJudge s src val.toNat
    | 0, 3 => { s with supply := { s.supply with aonOk := true } }
    | 0, 4 => { s with supply := { s.supply with coreOk := true } }
    | 0, 7 => { s with supply := { s.supply with vbatOk := true } }
    | 2, 0 | 2, 1 => dieReads s val
    | 2, 2 => { s with mea := { s.mea with refReady := true } }
    | 6, 0x10 => { s with i2ca := { s.i2ca with scl := false } }
    | 6, 0x11 => { s with i2ca := { s.i2ca with sda := false } }
    | 6, 0x12 => { s with i2cb := { s.i2cb with scl := false } }
    | 6, 0x13 => { s with i2cb := { s.i2cb with sda := false } }
    | 9, 3 => { s with rtc := { s.rtc with oscok := true } }
    | _, _ => s

-- the events of this chapter

/-- DIE_SHUT (R237, R664). -/
def execDieShut (degC : Int) (s : State) : Host.Outcome State Fault Refusal := done (dieShutDo s degC)

/-- DIE_WARN (R232, R664). -/
def execDieWarn (degC : Int) (s : State) : Host.Outcome State Fault Refusal := done (dieWarnDo s degC)

/-- REF_REG: the reference region loses regulation (R232; MEA_ST.REF_READY). -/
def execRefReg (s : State) : Host.Outcome State Fault Refusal :=
  done ({ s with mea := { s.mea with refReady := false } }.condOn 2 2 0)

/-- SUPPLY_FAULT (R232). -/
def execSupplyFault (src : Fin 8) (mv : Nat) (s : State) : Host.Outcome State Fault Refusal :=
  done (supplyFault s src.val mv)

/-- VSYS_REV_LATCH: the comparator of the RTC island latches VSYS below −1.0 V (R257). With VBAT_RTC outside its operating
range it may leave no latch (R258): the model then leaves none (DESIGN CHOICE, log entry 75). -/
def execVsysRevLatch (mv : Int) (vbatMv : Nat) (s : State) : Host.Outcome State Fault Refusal :=
  done (if mv < -1000 ∧ 1500 ≤ vbatMv ∧ vbatMv ≤ 3600 then { s with supply := { s.supply with revLatch := true } } else s)

/-- ERR_N_INPUT: it only sets GLB_SUP_ST.ERR_IN (R256). -/
def execErrNInput (low : Bool) (s : State) : Host.Outcome State Fault Refusal :=
  done { s with errN := { s.errN with low := low } }

/-- FAULT_OCCURRENCE (R234). -/
def execFaultOccurrence (k : Nat) (s : State) : Host.Outcome State Fault Refusal := done (faultTake s k)

/-- BLOCK_RESET_DONE (R239). -/
def execBlockResetDone (u : Fin 256) (s : State) : Host.Outcome State Fault Refusal := done (blockReset s u.val)

/-- ERR_N_RELEASE (R255). -/
def execErrNRelease (s : State) : Host.Outcome State Fault Refusal := done (errnRelease s)

/-- LAST_FAULT_RECORD_WRITE (R151). -/
def execLastFaultRecordWrite (verified : Bool) (s : State) : Host.Outcome State Fault Refusal :=
  done (recordWrite s verified)

end Sys2Proof.Machine
end

