-- ==== Sys2Proof/Machine/Units.lean ====
section
/-! DEFINITION. The unit operations of the mailbox (01_architecture.md, "Unit operations"; R23 to R29, R40, R684), and
the small commit and log operations (08_commits_recovery_and_cellar.md, R298). Each answers the state after, the final
code and the result words. -/

namespace Sys2Proof.Machine

open Sys2Proof

/-- A unit operation's checks from 3 to 12 in the order of R38: reserved bits, range, proof, fence, owner, GEN, BUSY,
state. ARG1, 'expected GEN', has no bit range in the table: GEN is eight bits wide (R22), so the model takes ARG1[7:0], and
ARG1[15:8] are reserved bits, not part of the value compared (DESIGN CHOICE, log entry 34). -/
def unitCode (s : State) (n : Nat) (gen : Word) (res range fenceOk ownerBad stateBad : Bool) : Word :=
  let u := s.unit n
  firstFail [(res || resBits gen 0x00FF, eReserved), (!unitNamed n || range, eRange), (heldUnit s n, eProof),
    (u.fenced && !fenceOk, eFenced), (ownerBad || u.owner == .sequencer, eOwner),
    (gen.setWidth 8 ≠ u.gen, eStale), (u.busy, eBusy), (stateBad, eState)]

/-- UNIT_INSPECT: accepted for a fenced unit (R29). -/
def opUnitInspect (s : State) (n : Word) : State × Word × List Word :=
  if !unitNamed n.toNat then (s, eRange, [])
  else
    let u := s.unit n.toNat
    (s, eOk, [u.word, wd (u.oidx.toNat + 16 * u.src.toNat)])

/-- A port that gains a rail by UNIT_GIVE records its GEN in every slot that maps it (R222). -/
def giveSync (s : State) (n p : Nat) : State :=
  slotKeys.foldl (fun s k => if k / 4 = p ∧ slotRail s k = n then
    s.setReg (xgenAddr k) (BitVec.setWidth 16 (s.unit n).gen) else s) s

/-- UNIT_GIVE (R40, R529): only from the present owner. -/
def opUnitGive (s : State) (r : Req) (n gen dest : Word) : State × Word × List Word :=
  let own := field dest 1 0
  let idx := field dest 5 2
  let k := n.toNat
  let range := own = 3 || (own ≠ 0 && 3 < idx) || (own = 0 && idx ≠ 0) || (k = uChg && own = 1)
  let c := unitCode s k gen (resBits dest 0x003F) range false (!reqOwns r (s.unit k)) false
  if c ≠ eOk then (s, c, [])
  else
    let s := s.accept k r.src fun u => { u with owner := ownerOf own, oidx := BitVec.ofNat 4 idx }
    let s := if k < 16 then s.changed k fun _ => false else s
    let s := if own = 1 ∧ k < 16 then giveSync s k idx else s
    (s, eOk, [(s.unit k).word])

/-- UNIT_TAKE (R40): from any present owner; a gang follower's requests are all refused (R132). -/
def opUnitTake (s : State) (r : Req) (n gen : Word) : State × Word × List Word :=
  let k := n.toNat
  let c := unitCode s k gen false false false false false
  if c ≠ eOk then (s, c, [])
  else
    let s := s.accept k r.src fun u => { u with owner := .management, oidx := 0 }
    let s := if k < 16 then s.changed k fun _ => false else s
    (s, eOk, [(s.unit k).word])

/-- UNIT_RELEASE (R40): only from the management path and only of a fenced unit. -/
def opUnitRelease (s : State) (r : Req) (n gen : Word) : State × Word × List Word :=
  let k := n.toNat
  let c := unitCode s k gen false false true (!r.isMgmt) (!(s.unit k).fenced)
  if c ≠ eOk then (s, c, [])
  else
    let code := releaseCode s k
    let s := s.accept k r.src fun u => { u with fenced := false, busy := false, code := code }
    let s := logFence (releaseEffects s k) k false
    (s, eOk, [(s.unit k).word])

/-- UNIT_FENCE (R28): a unit that cannot be fenced is out of range. -/
def opUnitFence (s : State) (r : Req) (n gen : Word) : State × Word × List Word :=
  let k := n.toNat
  let c := unitCode s k gen false (!canFence k) false false false
  if c ≠ eOk then (s, c, [])
  else
    let s := fenceUnit s k r.src
    (s, eOk, [(s.unit k).word])

/-- COMMIT (R271 to R275, R298). -/
def opCommit (s : State) (r : Req) (g : Word) : State × Word × List Word :=
  if resBits g 0x0007 then (s, eRange, []) else commitGroup s r (field g 2 0)

/-- ABORT (R276, R298): RES0 is the number of entries discarded. -/
def opAbort (s : State) (g : Word) : State × Word × List Word :=
  if resBits g 0x0007 then (s, eRange, [])
  else (dropGroup s (field g 2 0), eOk, [wd (groupEntries s (field g 2 0)).length])

/-- LOG_WRITE (R295, R298): RES0 and RES1 are the sequence number of the entry. -/
def opLogWrite (s : State) (args : List Word) : State × Word × List Word :=
  if logFull s then (logPut s 0x0A false args, eExhausted, [])
  else
    let s := logPut s 0x0A false args
    let n := s.logSeq - 1
    (s, eOk, [n.setWidth 16, (n >>> 16).setWidth 16])

end Sys2Proof.Machine
end

