-- ==== Sys2Proof/Machine/Engine.lean ====
section
/-! DEFINITION. The recipe engines (09_recipe_engines.md): instructions, entries and returns, exceptions, line fills and
halts. LD and ST are in Machine/Commands.lean, the debug and cache register writes in Machine/Access.lean, SIG and CLAIM in
Machine/Irq.lean. -/

namespace Sys2Proof.Machine

open Sys2Proof

-- running an instruction

/-- The engine is between two instructions and goes on: RUNNING, not fenced (R242), not halted, no exception to take first
(R330, R335). A stop or a debug halt that has been requested comes next: each command is a whole instruction, so none is in
progress when the request is accepted, and nothing more begins (R302, R344; 09_recipe_engines.md, "Corner cases"). -/
def engRuns (s : State) (n : Nat) : Bool :=
  let u := s.unit (uEng n)
  let e := s.eng n
  u.code == 1 && !u.fenced && !e.halted && e.xcpt.isNone && !e.stopReq && !e.haltReq

/-- A pending NMI is to be taken (R330). -/
def nmiDue (s : State) (n : Nat) : Bool := (s.eng n).nmipend && !(s.eng n).nmiact

/-- The router presents an interrupt that is to be taken (R330, R360), but not during a step (R346). In a deep sleep the router
presents none: nothing that it has saved is shown to an engine that is started, released or woken meanwhile (DESIGN CHOICE, log
entry 77). -/
def intDue (s : State) (n : Nat) : Bool :=
  let e := s.eng n
  (!s.irq.asleep && s.irq.eligible n != 0) && fI e.flags && !e.iact && !e.exc && !e.nmiact && !e.stepArm

/-- The next thing the engine does is an instruction: no entry comes before it (R330). -/
def engReady (s : State) (n : Nat) : Bool := engRuns s n && !nmiDue s n && !intDue s n

/-- The breakpoints that name the next instruction: BKHIT bits, none just after a resume or a step. -/
def bpHits (s : State) (n : Nat) : Nat :=
  let e := s.eng n
  let a := 0x2400 + 0x20 * n
  if e.skipBp then 0
  else flag (bit (s.reg a) 2 && s.reg (a + 4) == e.pc) 1 + flag (bit (s.reg a) 3 && s.reg (a + 5) == e.pc) 2

/-- A breakpoint halts the engine before the instruction. -/
def bpHalt (s : State) (n hits : Nat) : State :=
  let a := 0x2400 + 0x20 * n
  ((s.setEng n { s.eng n with halted := true, haltReq := false, stepArm := false }).orReg a 1).orReg (a + 1) (wd hits)

/-- The line of the shared cache that holds a code address is used (R340). -/
def cacheTouch (s : State) (a : Word) : State :=
  if a.toNat < 0x2000 then s
  else
    let base := a &&& 0xFFF0
    match s.cache.find? fun l => l.base = base with
    | some l => { s with cache := l :: s.cache.filter fun x => x.base ≠ base }
    | none => s

/-- After an instruction: complete, or it waits or sleeps. -/
def engEnd (s : State) (n : Nat) : State :=
  let c := (s.unit (uEng n)).code
  if c = 2 ∨ c = 3 then s.setEng n { s.eng n with skipBp := false } else s.setEng n (engFinish (s.eng n))

/-- Engine n executes one instruction of `len` words, whose effect is `f`; the fetch of each word uses its line (R340). -/
def engRunLen (n : Nat) (len : Word) (f : State → State) (s : State) : State :=
  if !engReady s n then s
  else if bpHits s n ≠ 0 then bpHalt s n (bpHits s n)
  else
    let pc := (s.eng n).pc
    engEnd (f (if len = 2 then cacheTouch (cacheTouch s pc) (pc + 1) else cacheTouch s pc)) n

/-- Engine n executes one instruction of one word, whose effect is `f`. -/
def engRun (n : Nat) (f : State → State) (s : State) : State := engRunLen n 1 f s

/-- An instruction of `len` words that changes the engine alone. -/
def engPure (n : Nat) (len : Word) (f : Eng → Eng) (s : State) : State :=
  engRunLen n len (fun s => let e := s.eng n; s.setEng n { f e with pc := e.pc + len }) s

-- exceptions

/-- ENGn_ST.CAUSE. -/
def setCause (s : State) (n c : Nat) : State := s.setReg (0x2000 + 0x40 * n) (wd (256 * c))

def Exc.cause : Exc → Nat
  | .illegal => 1
  | .fetch => 2
  | .divzero => 3
  | .trap => 4
def Exc.vector : Exc → Word
  | .illegal => 0x0006
  | .fetch => 0x0006
  | .divzero => 0x0004
  | .trap => 0x0004

/-- A double fault (R334): FAULTED, and DOUBLE. -/
def engDouble (s : State) (n : Nat) : State := (setCause (s.setCode (uEng n) 0xF) n 5).occur 7 (8 * n + 4) 0

/-- The engine raises an exception (R334, R335), whose occurrence the collector takes before it enters the vector; or it traps,
and has no occurrence to wait for (R336). Either way the entry is the next thing that it does (R330). -/
def engRaise (s : State) (n : Nat) (k : Exc) : State :=
  let e := s.eng n
  if e.exc || e.nmiact then engDouble s n
  else
    let s := setCause (s.setEng n { e with xcpt := some (k, k.src.isNone) }) n k.cause
    match k.src with
    | some i => s.occur 7 (8 * n + i) 0
    | none => s

/-- Entry into the vector of a trap or an exception (R331): the PC as it stands is saved. -/
def engEnter (s : State) (n : Nat) (vector : Word) : State :=
  let e := s.eng n
  let s := (s.setReg (0x2006 + 0x40 * n) e.pc).setReg (0x2007 + 0x40 * n) (e.flags.setWidth 16)
  s.setEng n { e with exc := true, flags := clearI e.flags, pc := vector, xcpt := none }

/-- An illegal instruction (R309). -/
def engIllegal (n : Nat) (s : State) : State := engRun n (fun s => engRaise s n .illegal) s

-- shapes of instructions

/-- rd ← rd op rs with flags (R307, R310 to R318). -/
def engAlu (n : Nat) (d s : BitVec 4) (op : Word → Word → EFlags → Word × EFlags) (st : State) : State :=
  engPure n 1 (fun e =>
    let r := op (e.greg d.toNat) (e.greg s.toNat) e.flags
    { e.setG d.toNat r.1 with flags := r.2 }) st

/-- The pair g(d), g(d + 1) from both operands, read before either is written (R319); an odd d is illegal (R309). -/
def engPair (n : Nat) (d s : BitVec 4) (op : Word → Word → EFlags → Word × Word × EFlags) (st : State) : State :=
  if d.toNat % 2 = 1 then engIllegal n st
  else engPure n 1 (fun e =>
    let r := op (e.greg d.toNat) (e.greg s.toNat) e.flags
    { (e.setG d.toNat r.1).setG (d.toNat + 1) r.2.1 with flags := r.2.2 }) st

/-- As `engPair`, and DIVZERO after the results where the divisor is 0 and DZTRAP is 1 (R316). -/
def engDivide (n : Nat) (d s : BitVec 4) (op : Word → Word → EFlags → Word × Word × EFlags) (st : State) : State :=
  if d.toNat % 2 = 1 then engIllegal n st
  else engRun n (fun st =>
    let e := st.eng n
    let b := e.greg s.toNat
    let r := op (e.greg d.toNat) b e.flags
    let st := st.setEng n { (e.setG d.toNat r.1).setG (d.toNat + 1) r.2.1 with flags := r.2.2, pc := e.pc + 1 }
    if b = 0 ∧ bit (st.reg (0x2001 + 0x40 * n)) 1 then engRaise st n .divzero else st) st

/-- A return from a handler: illegal where its active bit is 0 (R331, R332). -/
def engReturn (n : Nat) (active : Eng → Bool) (clear : Eng → Eng) (pcReg : Nat) (st : State) : State :=
  engRun n (fun st =>
    let e := st.eng n
    if active e then
      let saved : EFlags := (st.reg (pcReg + 1 + 0x40 * n)).setWidth 7
      st.setEng n { clear e with pc := st.reg (pcReg + 0x40 * n), flags := returnFlags saved e.flags }
    else engRaise st n .illegal) st

-- WAIT (R326)

/-- WAIT: a source out of range completes at once with E_RANGE; otherwise the engine waits, and `settle` or
WAIT_TIMEOUT ends it. -/
def engWait (n : Nat) (d s t : BitVec 4) (st : State) : State :=
  engRun n (fun st =>
    let e := st.eng n
    let src := e.greg s.toNat
    if src ≠ 0xFFFF ∧ 0x180 ≤ src.toNat then st.setEng n { e.setG d.toNat eRange with pc := e.pc + 1 }
    else (st.setCode (uEng n) 3).setEng n { e with waiting := some (d, src, e.greg t.toNat) }) st

/-- WAIT_TIMEOUT (R326, R327): a WAIT with a limit ends with 0x0001. -/
def engWaitTimeout (n : Nat) (s : State) : State :=
  let u := s.unit (uEng n)
  let e := s.eng n
  if u.code = 3 ∧ ¬u.fenced ∧ ¬e.halted ∧ ¬e.stopReq ∧ ¬e.haltReq then
    match e.waiting with
    | some (d, _, lim) =>
      if lim = 0 then s
      else (s.setCode (uEng n) 1).setEng n (engFinish { e.setG d.toNat 1 with waiting := none, pc := e.pc + 1 })
    | none => s
  else s

-- COMMIT, ABORT and UREQ

/-- The results of a command replace CMD_RES0 to CMD_RES3 of a bank; a word that the command does not define reads
0x0000 (R43). -/
def putResults (q : ReqSt) (rs : List Word) : ReqSt :=
  { q with bank := [0, 1, 2, 3].foldl (fun m i => mset dZero m (0xB + i) (rs.getD i 0)) q.bank }

/-- Requester of engine n. -/
def engReq (n : Nat) : Req := .engine (Fin.ofNat 4 n)

/-- The bank of a requester reads PENDING. -/
def bankPending (s : State) (r : Req) : Bool := mget dZero (s.req r).bank 0xA == ePending

/-- COMMIT and ABORT of an engine (R325), with the operation that the mailbox has. -/
def engCommit (n : Nat) (d s : BitVec 4) (op : State → Word → State × Word × List Word) (st : State) : State :=
  engRun n (fun st =>
    let r := engReq n
    let g := (st.eng n).greg s.toNat
    let (st, c) :=
      if bankPending st r then (st, eBusy)
      else
        let (st, c, rs) := op st g
        (st.setReq r (putResults (st.req r) rs), c)
    let e := st.eng n
    st.setEng n { e.setG d.toNat c with pc := e.pc + 1 }) st

/-- UREQ (R322 to R324): a request to a rail or an LDO with an explicit generation; s above 13 is illegal (R309). -/
def engUreq (n : Nat) (d s : BitVec 4) (rq : Word → RailReq) (st : State) : State :=
  if 13 < s.toNat then engIllegal n st
  else engRun n (fun st =>
    let e := st.eng n
    let k := (e.greg s.toNat).toNat
    let gen : Byte := (e.greg (s.toNat + 1)).setWidth 8
    let q := rq (e.greg (s.toNat + 2))
    let c := if 0x18 ≤ k then eRange else railCode st k (ownerIs (st.unit k) .engine n) (some gen) q
    if c ≠ eOk then st.setEng n { e.setG d.toNat c with pc := e.pc + 1 }
    else
      let st := railDo st k srcEngine none (fun _ => false) q
      let e := st.eng n
      let e := (e.setG d.toNat eOk).setG (s.toNat + 1) (BitVec.setWidth 16 (st.unit k).gen)
      st.setEng n { e with pc := e.pc + 1 }) st

/-- TRAP (R331, R334, R336). The table's line for TRAP speaks of its vector too; by R330 the entry is a thing of its own between
two instructions, so it is left to EXCEPTION_ENTRY, and a STEP of TRAP halts before it (DEDUCED, log entry 39). -/
def engTrap (n : Nat) (imm : Byte) (st : State) : State :=
  engRun n (fun st =>
    let st := st.setReg (0x200A + 0x40 * n) (imm.setWidth 16)
    let e := st.eng n
    engRaise (st.setEng n { e with pc := e.pc + 1 }) n .trap) st

-- entries

/-- EXCEPTION_ENTRY (R330, R331, R335): once the collector has taken the occurrence, and unless it fenced the engine; after a TRAP
at once. -/
def engExcEntry (s : State) (n : Nat) : State :=
  let u := s.unit (uEng n)
  let e := s.eng n
  match e.xcpt with
  | some (k, true) =>
    if u.code = 1 ∧ ¬u.fenced ∧ ¬e.halted ∧ ¬e.stopReq ∧ ¬e.haltReq then engEnd (engEnter s n k.vector) n else s
  | _ => s

/-- NMI_ENTRY (R330, R331, R333). -/
def engNmiEntry (s : State) (n : Nat) : State :=
  let e := s.eng n
  if engRuns s n && nmiDue s n then
    let s := (s.setReg (0x2008 + 0x40 * n) e.pc).setReg (0x2009 + 0x40 * n) (e.flags.setWidth 16)
    engEnd (s.setEng n { e with nmiact := true, nmipend := false, nmiheld := false, flags := clearI e.flags, pc := 0x0002 }) n
  else s

/-- INTERRUPT_ENTRY (R330, R331, R360), after a pending NMI. -/
def engIntEntry (s : State) (n : Nat) : State :=
  let e := s.eng n
  if engRuns s n && !nmiDue s n && intDue s n then
    let s := (s.setReg (0x2004 + 0x40 * n) e.pc).setReg (0x2005 + 0x40 * n) (e.flags.setWidth 16)
    engEnd (s.setEng n { e with iact := true, flags := clearI e.flags, pc := 0x0008 }) n
  else s

/-- WDOG (R337, R338): the watchdog counts only while the engine is RUNNING and not halted. -/
def engWdog (s : State) (n : Nat) : State :=
  let u := s.unit (uEng n)
  let e := s.eng n
  if bit (s.reg (0x2001 + 0x40 * n)) 2 && u.code == 1 && !u.fenced && !e.halted then
    (setCause (s.setEng n { e with wdog := s.reg (0x2003 + 0x40 * n) }) n 6).occur 7 (8 * n + 1) 0
  else s

/-- ENGINE_STOP (R302 to R304). -/
def engStop (s : State) (n : Nat) : State :=
  if (s.eng n).stopReq then (engineOff s n).arrive (uEng n) 0 else s

-- line fills (R339 to R342, R539)

/-- The line that a fetch at `pc` misses: the instruction's own, or that of a second word. -/
def missLine (s : State) (pc : Word) : Word :=
  let has (a : Word) : Bool := a.toNat < 0x2000 || s.cache.any fun l => l.base = a &&& 0xFFF0
  if has pc then (pc + 1) &&& 0xFFF0 else pc &&& 0xFFF0

/-- A line enters its set of four, in place of the least recently used (R340). -/
def cacheFill (c : List CLine) (l : CLine) : List CLine :=
  let set (x : CLine) : Nat := x.base.toNat / 16 % 16
  let rest := c.filter fun x => x.base ≠ l.base
  let mine := rest.filter fun x => set x = set l
  let out := (mine.drop 3).map (·.base)
  l :: rest.filter fun x => !out.contains x.base

/-- A fetch of the instruction at `pc` reads recipe SRAM: its first word, or, of one at 0xFFFF whose first word is cached, a second
word at 0x0000 (R311). -/
def sramFetch (s : State) (pc : Word) : Bool :=
  pc.toNat < 0x2000 || (pc == 0xFFFF && s.cache.any fun l => l.base == 0xFFF0)

/-- LINE_FILL (R340, R342, R539): one read command of 32 bytes, and the line it brings; without a command, FETCH, where the
SPI host cannot complete it. A fetch from recipe SRAM meets the uncorrectable error in the instruction's first word, or in the
second word of an instruction at 0xFFFF, which is at 0x0000 (R311). -/
def engFill (s : State) (n : Nat) (f : Fill) : State :=
  if !engReady s n then s
  else
    let e := s.eng n
    match f with
    | .line bs =>
      let base := missLine s e.pc
      if base.toNat < 0x2000 ∨ s.cache.any (fun l => l.base = base) then s
      -- the SPI host cannot complete it, whatever else it does (R342, R541)
      else if (s.unit uSph).fenced || bit (s.reg 0x5000) 0 then engEnd (engRaise (cacheTouch s e.pc) n .fetch) n
      -- the transfer in progress is not cut short (R542)
      else if xBusy s ∨ bs.length ≠ 32 then s
      else
        -- the line of the first word has just been fetched from
        let s := cacheTouch s e.pc
        (sphIssue { s with cache := cacheFill s.cache { base := base, words := lineWords bs } }
          (readCmd s (xipByte s base.toNat) 32)).setReg 0x2101 (wd (satInc (s.reg 0x2101).toNat 0xFFFF))
    | .sramCe => if sramFetch s e.pc then (cacheTouch s e.pc).occur 8 0 0 else s
    | .sramUe => if sramFetch s e.pc then (engEnd (engRaise (cacheTouch s e.pc) n .fetch) n).occur 8 1 0 else s

/-- HALT_TAKEN (R344): a WAIT or SLEEP in progress is abandoned, with the PC left at it. A STEP that is set begins at once
(R346). -/
def engHaltTaken (s : State) (n : Nat) : State :=
  let c := (s.unit (uEng n)).code
  let e := s.eng n
  if e.haltReq && (c == 1 || c == 2 || c == 3) then
    (s.setCode (uEng n) 1).setEng n { e with halted := !e.stepArm, haltReq := false, skipBp := e.skipBp || e.stepArm, waiting := none }
  else s

-- the commands of this chapter

/-- ADD (R307, R313). -/
def execAdd (e : Fin 4) (d r : BitVec 4) (s : State) : Host.Outcome State Fault Refusal := done (engAlu e.val d r aluAdd s)

/-- SUB (R307, R313). -/
def execSub (e : Fin 4) (d r : BitVec 4) (s : State) : Host.Outcome State Fault Refusal := done (engAlu e.val d r aluSub s)

/-- ADDS (R314). -/
def execAdds (e : Fin 4) (d r : BitVec 4) (s : State) : Host.Outcome State Fault Refusal := done (engAlu e.val d r aluAdds s)

/-- SUBS (R314). -/
def execSubs (e : Fin 4) (d r : BitVec 4) (s : State) : Host.Outcome State Fault Refusal := done (engAlu e.val d r aluSubs s)

/-- AND (R310). -/
def execAnd (e : Fin 4) (d r : BitVec 4) (s : State) : Host.Outcome State Fault Refusal :=
  done (engAlu e.val d r (fun a b f => aluLogic (a &&& b) f) s)

/-- OR (R310). -/
def execOr (e : Fin 4) (d r : BitVec 4) (s : State) : Host.Outcome State Fault Refusal :=
  done (engAlu e.val d r (fun a b f => aluLogic (a ||| b) f) s)

/-- XOR (R310). -/
def execXor (e : Fin 4) (d r : BitVec 4) (s : State) : Host.Outcome State Fault Refusal :=
  done (engAlu e.val d r (fun a b f => aluLogic (a ^^^ b) f) s)

/-- MOV (R310). -/
def execMov (e : Fin 4) (d r : BitVec 4) (s : State) : Host.Outcome State Fault Refusal :=
  done (engAlu e.val d r (fun _ b f => aluLogic b f) s)

/-- CMP: flags as SUB, no result written (R307). -/
def execCmp (e : Fin 4) (d r : BitVec 4) (s : State) : Host.Outcome State Fault Refusal :=
  done (engPure e.val 1 (fun x => { x with flags := (aluSub (x.greg d.toNat) (x.greg r.toNat) x.flags).2 }) s)

/-- LSL (R317). -/
def execLsl (e : Fin 4) (d r : BitVec 4) (s : State) : Host.Outcome State Fault Refusal := done (engAlu e.val d r aluLsl s)

/-- LSR (R317). -/
def execLsr (e : Fin 4) (d r : BitVec 4) (s : State) : Host.Outcome State Fault Refusal := done (engAlu e.val d r aluLsr s)

/-- ASR (R317). -/
def execAsr (e : Fin 4) (d r : BitVec 4) (s : State) : Host.Outcome State Fault Refusal := done (engAlu e.val d r aluAsr s)

/-- ROR (R318). -/
def execRor (e : Fin 4) (d r : BitVec 4) (s : State) : Host.Outcome State Fault Refusal := done (engAlu e.val d r aluRor s)

/-- MUL (R319). -/
def execMul (e : Fin 4) (d r : BitVec 4) (s : State) : Host.Outcome State Fault Refusal := done (engPair e.val d r aluMul s)

/-- DIV (R315, R316). -/
def execDiv (e : Fin 4) (d r : BitVec 4) (s : State) : Host.Outcome State Fault Refusal := done (engDivide e.val d r aluDiv s)

/-- DIVU (R316). -/
def execDivu (e : Fin 4) (d r : BitVec 4) (s : State) : Host.Outcome State Fault Refusal :=
  done (engDivide e.val d r aluDivu s)

/-- NEG (R313). -/
def execNeg (e : Fin 4) (d r : BitVec 4) (s : State) : Host.Outcome State Fault Refusal :=
  done (engAlu e.val d r (fun _ b f => aluSub 0 b f) s)

/-- NEGS (R314). -/
def execNegs (e : Fin 4) (d r : BitVec 4) (s : State) : Host.Outcome State Fault Refusal :=
  done (engAlu e.val d r (fun _ b f => aluSubs 0 b f) s)

/-- NOT (R310). -/
def execNot (e : Fin 4) (d r : BitVec 4) (s : State) : Host.Outcome State Fault Refusal :=
  done (engAlu e.val d r (fun _ b f => aluLogic (~~~b) f) s)

/-- MULU (R319). -/
def execMulu (e : Fin 4) (d r : BitVec 4) (s : State) : Host.Outcome State Fault Refusal :=
  done (engPair e.val d r aluMulu s)

/-- MFF (R305). -/
def execMff (e : Fin 4) (d : BitVec 4) (s : State) : Host.Outcome State Fault Refusal :=
  done (engPure e.val 1 (fun x => x.setG d.toNat (x.flags.setWidth 16)) s)

/-- MTF (R305, R306). -/
def execMtf (e : Fin 4) (r : BitVec 4) (s : State) : Host.Outcome State Fault Refusal :=
  done (engPure e.val 1 (fun x => { x with flags := (x.greg r.toNat).setWidth 7 }) s)

/-- KICK (R337). -/
def execKick (e : Fin 4) (s : State) : Host.Outcome State Fault Refusal :=
  done (engRun e.val (fun s =>
    let x := s.eng e.val
    s.setEng e.val { x with wdog := s.reg (0x2003 + 0x40 * e.val), pc := x.pc + 1 }) s)

/-- SLEEP (R328); `settle` ends it. -/
def execSleep (e : Fin 4) (s : State) : Host.Outcome State Fault Refusal :=
  done (engRun e.val (fun s => s.setCode (uEng e.val) 2) s)

/-- RETI (R331). -/
def execReti (e : Fin 4) (s : State) : Host.Outcome State Fault Refusal :=
  done (engReturn e.val (·.iact) (fun x => { x with iact := false }) 0x2004 s)

/-- RETX (R331). -/
def execRetx (e : Fin 4) (s : State) : Host.Outcome State Fault Refusal :=
  done (engReturn e.val (·.exc) (fun x => { x with exc := false }) 0x2006 s)

/-- RETN (R331). -/
def execRetn (e : Fin 4) (s : State) : Host.Outcome State Fault Refusal :=
  done (engReturn e.val (·.nmiact) (fun x => { x with nmiact := false }) 0x2008 s)

/-- ADDI (R310). -/
def execAddi (e : Fin 4) (d : BitVec 4) (imm : Byte) (s : State) : Host.Outcome State Fault Refusal :=
  done (engAlu e.val d d (fun a _ f => aluAdd a (imm.signExtend 16) f) s)

/-- CMPI (R310). -/
def execCmpi (e : Fin 4) (d : BitVec 4) (imm : Byte) (s : State) : Host.Outcome State Fault Refusal :=
  done (engPure e.val 1 (fun x => { x with flags := (aluSub (x.greg d.toNat) (imm.signExtend 16) x.flags).2 }) s)

/-- LDI (R310). -/
def execLdi (e : Fin 4) (d : BitVec 4) (imm : Byte) (s : State) : Host.Outcome State Fault Refusal :=
  done (engPure e.val 1 (fun x => x.setG d.toNat (imm.signExtend 16)) s)

/-- LDL (R308, R310). -/
def execLdl (e : Fin 4) (d : BitVec 4) (imm : Word) (s : State) : Host.Outcome State Fault Refusal :=
  done (engPure e.val 2 (fun x => x.setG d.toNat imm) s)

/-- Bcc; condition 0xF is illegal (R309, R311). -/
def execBcc (e : Fin 4) (cond : BitVec 4) (off : Byte) (s : State) : Host.Outcome State Fault Refusal :=
  done (if cond = 0xF then engIllegal e.val s
    else engRun e.val (fun s =>
      let x := s.eng e.val
      s.setEng e.val { x with pc := x.pc + 1 + (if condHolds cond x.flags then off.signExtend 16 else 0) }) s)

/-- JMP (R311). -/
def execJmp (e : Fin 4) (target : Word) (s : State) : Host.Outcome State Fault Refusal :=
  done (engRunLen e.val 2 (fun s => s.setEng e.val { s.eng e.val with pc := target }) s)

/-- CALL (R312). -/
def execCall (e : Fin 4) (target : Word) (s : State) : Host.Outcome State Fault Refusal :=
  done (engRunLen e.val 2 (fun s =>
    let x := s.eng e.val
    s.setEng e.val { x.setG 15 (x.pc + 2) with pc := target }) s)

/-- JR (R312). -/
def execJr (e : Fin 4) (r : BitVec 4) (s : State) : Host.Outcome State Fault Refusal :=
  done (engRun e.val (fun s =>
    let x := s.eng e.val
    s.setEng e.val { x with pc := x.greg r.toNat }) s)

/-- CALLR (R312); the target is read before g15 is written. -/
def execCallr (e : Fin 4) (r : BitVec 4) (s : State) : Host.Outcome State Fault Refusal :=
  done (engRun e.val (fun s =>
    let x := s.eng e.val
    s.setEng e.val { x.setG 15 (x.pc + 1) with pc := x.greg r.toNat }) s)

/-- WAIT (R326). -/
def execWait (e : Fin 4) (d r t : BitVec 4) (s : State) : Host.Outcome State Fault Refusal := done (engWait e.val d r t s)

/-- WAIT_TIMEOUT (R327). -/
def execWaitTimeout (e : Fin 4) (s : State) : Host.Outcome State Fault Refusal := done (engWaitTimeout e.val s)

/-- COMMIT (R325). -/
def execCommitInstr (e : Fin 4) (d r : BitVec 4) (s : State) : Host.Outcome State Fault Refusal :=
  done (engCommit e.val d r (fun s g => opCommit s (.engine e) g) s)

/-- ABORT (R325). -/
def execAbortInstr (e : Fin 4) (d r : BitVec 4) (s : State) : Host.Outcome State Fault Refusal :=
  done (engCommit e.val d r opAbort s)

/-- UREQ SETV (R322). -/
def execUreqSetv (e : Fin 4) (d r : BitVec 4) (s : State) : Host.Outcome State Fault Refusal :=
  done (engUreq e.val d r (fun v => .setv v) s)

/-- UREQ ON (R322). -/
def execUreqOn (e : Fin 4) (d r : BitVec 4) (s : State) : Host.Outcome State Fault Refusal :=
  done (engUreq e.val d r (fun _ => .on) s)

/-- UREQ OFF (R322). -/
def execUreqOff (e : Fin 4) (d r : BitVec 4) (s : State) : Host.Outcome State Fault Refusal :=
  done (engUreq e.val d r (fun _ => .off) s)

/-- TRAP (R336). -/
def execTrap (e : Fin 4) (imm : Byte) (s : State) : Host.Outcome State Fault Refusal := done (engTrap e.val imm s)

/-- ILLEGAL (R309). -/
def execIllegal (e : Fin 4) (s : State) : Host.Outcome State Fault Refusal := done (engIllegal e.val s)

/-- EXCEPTION_ENTRY (R335). -/
def execExceptionEntry (e : Fin 4) (s : State) : Host.Outcome State Fault Refusal := done (engExcEntry s e.val)

/-- INTERRUPT_ENTRY (R330). -/
def execInterruptEntry (e : Fin 4) (s : State) : Host.Outcome State Fault Refusal := done (engIntEntry s e.val)

/-- NMI_ENTRY (R330). -/
def execNmiEntry (e : Fin 4) (s : State) : Host.Outcome State Fault Refusal := done (engNmiEntry s e.val)

/-- WDOG (R338). -/
def execWdog (e : Fin 4) (s : State) : Host.Outcome State Fault Refusal := done (engWdog s e.val)

/-- ENGINE_STOP (R302). -/
def execEngineStop (e : Fin 4) (s : State) : Host.Outcome State Fault Refusal := done (engStop s e.val)

/-- LINE_FILL (R340). -/
def execLineFill (e : Fin 4) (f : Fill) (s : State) : Host.Outcome State Fault Refusal := done (engFill s e.val f)

/-- HALT_TAKEN (R344). -/
def execHaltTaken (e : Fin 4) (s : State) : Host.Outcome State Fault Refusal := done (engHaltTaken s e.val)

end Sys2Proof.Machine
end

