-- ==== Sys2Proof/Machine/Irq.lean ====
section
/-! DEFINITION. The interrupt router's accesses and events (10_interrupt_router.md): claims, completions, doorbells,
pending and enable words, EXT_IRQ levels and deep sleep. -/

namespace Sys2Proof.Machine

open Sys2Proof

/-- The number names a source that is not reserved (R349). -/
def sourceNamed (n : Nat) : Bool := n < 0x180 && bit (srcMask (n / 16)) (n % 16)

/-- Word w of a set of sources. -/
def srcWord (v : SrcSet) (w : Nat) : Word := (v >>> (16 * w)).setWidth 16

/-- A set with word w replaced (R355, R372). -/
def putSrcWord (v : SrcSet) (w : Nat) (x : Word) : SrcSet :=
  (v &&& ~~~((0xFFFF : BitVec 384) <<< (16 * w))) ||| (BitVec.setWidth 384 x <<< (16 * w))

/-- The state in which an access of the IRQ block finds the router (R378). -/
def irqAccess (s : State) : State := { s with irq := s.irq.awake }

/-- A write of IRQ_PENDw (R355); `settle` applies R351 again. -/
def irqPutPend (s : State) (w : Nat) (x : Word) : State :=
  let s := irqAccess s
  { s with irq := { s.irq with pend := putSrcWord s.irq.pend w x } }

/-- A write of IRQ_ENt_w (R372). -/
def irqPutEn (s : State) (t w : Nat) (x : Word) : State :=
  let s := irqAccess s
  { s with irq := { s.irq with en := mset dSet s.irq.en t (putSrcWord (s.irq.enOf t) w x) } }

/-- A claim by target t (R362 to R366): the number and the state after. -/
def irqClaim (s : State) (t : Nat) : Word × State :=
  let s := irqAccess s
  -- eligibility is judged on the present assertions
  let (n, q) := (settleIrq s).claim t
  (wd n, { s with irq := q })

/-- The code of a doorbell write (R356). -/
def doorbellCode (v : Word) : Word := firstFail [(!(0x100 ≤ v.toNat && v.toNat ≤ 0x17F), eRange)]

/-- The code of a completion by target t (R368); `ownerBad` where the requester may not write that register. -/
def cmplCode (s : State) (t : Nat) (ownerBad : Bool) (v : Word) : Word :=
  firstFail [(!sourceNamed v.toNat, eRange), (ownerBad, eOwner), (s.irq.awake.clmOf t &&& srcBit v.toNat == 0, eState)]

/-- Source v is completed for target t (R368). -/
def irqComplete (s : State) (t : Nat) (v : Word) : State :=
  let s := irqAccess s
  { s with irq := s.irq.complete t v.toNat }

/-- The filtered level of EXT_IRQn changes (R357, R358). -/
def extLevel (s : State) (n : Nat) (level : Bool) : State :=
  let old := s.extLvl.toNat.testBit n
  let mask : Byte := 1#8 <<< n
  let s := { s with extLvl := if level then s.extLvl ||| mask else s.extLvl &&& ~~~mask }
  let mode := field (s.reg (0x1D50 + n)) 2 0
  let edge := old != level && ((mode = 3 && level) || (mode = 4 && !level) || mode = 5)
  if edge then s.orReg 0x1D58 (wd (2 ^ n)) else s

/-- The router may enter deep sleep (R377). -/
def sleepReady (s : State) : Bool :=
  let q := settleIrq s
  bit (s.reg 0x1D60) 0 && !q.asleep &&
    ([0, 1, 2, 3].all fun n =>
      let u := s.unit (uEng n)
      u.code == 0 || u.code == 2 || u.fenced) &&
    q.claimed == 0 && q.eligible 4 == 0 && q.eligible 5 == 0

/-- DEEP_SLEEP_ENTER (R377). -/
def deepEnter (s : State) : State :=
  if !sleepReady s then s
  else
    let q := settleIrq s
    let saved : IrqSaved := { pend := q.pend, en := q.en, clm := q.clm, pres := q.pres, taken := q.taken,
                               holds := q.holds }
    let w := s.reg 0x1D61
    { s with irq := { q.unpowered with asleep := true, saved := some saved } }.setReg 0x1D61
      (wd (field w 7 0 + 256 * satInc (field w 15 8) 255))

/-- Every source of word w that is not reserved. -/
def allOfWord (w : Nat) : SrcSet := putSrcWord 0 w (srcMask w)

/-- A failing word of the hold state: a source of word w that was held may be held no longer. -/
def holdsBad (holds : List (Nat × SrcSet)) (w : Nat) (v : Word) : List (Nat × SrcSet) :=
  holds.map fun h => (h.1, putSrcWord h.2 w (srcWord h.2 w &&& v))

/-- A retained word other than a pending or enable word is restored though it failed its check: its value is free, as R379
states none, but no interrupt is lost (R379): a latched edge stays latched, no source is held that was not, and claims stay
none, as they are in a deep sleep (R377). DEDUCED, log entry 50. -/
def restoreBad (s : State) (b : RetWord) : State :=
  let v := Config.freeRetained s.fresh
  let q := s.irq
  let s := match b with
    | .claimed _ _ => s
    | .presented t =>
      { s with irq := { q with pres := mset dPres q.pres t.val (if bit v 15 then none else some (v.toNat % 0x180)) } }
    | .extCfg n => s.setReg (0x1D50 + n.val) (v &&& 0xFF07)
    | .extFlg => s.orReg 0x1D58 (v &&& 0x00FF)
    | .hold w => { s with irq := { q with holds := holdsBad q.holds w.val v } }
  s.tick

/-- DEEP_SLEEP_EXIT (R378, R379): a rise, an edge, or an access that waits for the restore ends the sleep. `badPend`, `badEn` and
`badRest` name the restored words that fail their retention check, as w, as 24t + w, and by name. -/
def deepExit (s : State) (badPend badEn : List Nat) (badRest : List RetWord) : State :=
  if !s.irq.asleep then s
  else
    let s := irqAccess s
    let bp := badPend.filter (· < 24)
    let be := badEn.filter (· < 144)
    let pend := bp.foldl (fun v w => v ||| allOfWord w) s.irq.pend
    let en := be.foldl (fun m k => mset dSet m (k / 24) (putSrcWord (mget dSet m (k / 24)) (k % 24) 0)) s.irq.en
    let s := badRest.foldl restoreBad { s with irq := { s.irq with pend := pend, en := en } }
    let n := bp.length + be.length + badRest.length
    if n = 0 then s else (List.range n).foldl (fun s _ => s.occur 8 3 0) (s.orReg 0x1D61 2)

/-- SIG (R329, R356): a rejected value is recorded in the engine's last-error register. -/
def engSig (n : Nat) (r : BitVec 4) (s : State) : State :=
  engRun n (fun s =>
    let e := s.eng n
    let v := e.greg r.toNat
    let s := s.setEng n { e with pc := e.pc + 1 }
    if doorbellCode v ≠ eOk then s.setReq (engReq n) { s.req (engReq n) with lasterr := eRange }
    else { s with irq := s.irq.ring v.toNat }) s

/-- CLAIM (R362 to R364). -/
def engClaim (n : Nat) (d : BitVec 4) (s : State) : State :=
  engRun n (fun s =>
    let (v, s) := irqClaim s n
    let e := s.eng n
    s.setEng n { e.setG d.toNat v with pc := e.pc + 1 }) s

-- the commands of this chapter that are no register accesses

/-- SIG (R329). -/
def execSig (e : Fin 4) (r : BitVec 4) (s : State) : Host.Outcome State Fault Refusal := done (engSig e.val r s)

/-- CLAIM (R362). -/
def execClaim (e : Fin 4) (d : BitVec 4) (s : State) : Host.Outcome State Fault Refusal := done (engClaim e.val d s)

/-- EXT_IRQ_LEVEL_CHANGE (R357). -/
def execExtIrqLevelChange (n : Fin 8) (level : Bool) (s : State) : Host.Outcome State Fault Refusal :=
  done (extLevel s n.val level)

/-- DEEP_SLEEP_ENTER (R377). -/
def execDeepSleepEnter (s : State) : Host.Outcome State Fault Refusal := done (deepEnter s)

/-- DEEP_SLEEP_EXIT (R378). -/
def execDeepSleepExit (badPend badEn : List Nat) (badRest : List RetWord) (s : State) : Host.Outcome State Fault Refusal :=
  done (deepExit s badPend badEn badRest)

end Sys2Proof.Machine
end

