-- ==== Sys2Proof/Machine/Taps.lean ====
section
/-! DEFINITION. Tap operations and the events of the measurement converters (11_taps_and_measurement.md). -/

namespace Sys2Proof.Machine

open Sys2Proof

-- opening

/-- Account of an opener (R410). -/
def acctOf (r : Req) : Nat :=
  match r with
  | .engine n => 5 + n.val
  | .spt => 0
  | .i2ca => 1
  | .uart => 2
  | .ring => 3
  | _ => 4

/-- A source code of the table "Tap sources" that an open may name (R388, R389). -/
def tapSourceOk (s : State) (n : Nat) : Bool := n < 0x5A && !(n < 0x10 && isFollower s n)

/-- Converter c is enabled and serves: one that is fenced or RECOVERING does neither, whatever its EN (R242, R398; DESIGN CHOICE,
log entry 79). -/
def convOpen (s : State) (c : Nat) : Bool :=
  let u := s.unit (uMc c)
  bit (mcCfg s c) 0 && !u.fenced && u.code != 0xE

def convHas (s : State) (c : Nat) (src : Byte) : Bool := (convSources s c).contains src

/-- The converter for a source where the open names any (R398): one that already serves it, where all that do have the
same FILT and REF; otherwise the enabled one with the fewest sources. -/
def chooseConv (s : State) (src : Byte) : Option Nat :=
  let on := (List.range 8).filter fun c => convOpen s c
  let serving := on.filter fun c => convHas s c src
  let pick (l : List Nat) : Option Nat :=
    l.foldl (fun b c => match b with
      | none => some c
      | some x => if (convSources s c).length < (convSources s x).length then some c else b) none
  match serving with
  | c :: _ => if serving.all fun x => mcCfg s x &&& 6 == mcCfg s c &&& 6 then some c else pick on
  | [] => pick on

/-- The source fits on the converter (R384). -/
def convFits (s : State) (c : Nat) (src : Byte) : Bool := convHas s c src || (convSources s c).length < 16

/-- The hush conditions of R400 on converter c: (ORDER + 1) periods and 1 µs within the rail's LEN. -/
def hushOk (s : State) (c : Nat) (src : Byte) : Bool :=
  let n := src.toNat
  n < 0x20 &&
    (let len := (s.reg (0x100E + 0x40 * leaderOf s (n % 16))).toNat
     (mcOrder s c + 1) * 100000000 + 1000 * mcRate s c ≤ 5 * len * mcRate s c)

/-- Words of a sample with its status word (R409). -/
def engWords (form : Bool) : Nat := if form then 3 else 2

/-- The lowest index that may be opened (R394): a tap that is OFF, and not fenced, which an open could not act on (R29; DESIGN CHOICE,
log entry 79). -/
def freeTap (s : State) : Option Nat :=
  (List.range 127).find? fun i =>
    let u := s.unit (uTap i)
    (s.tap i).isNone && u.code == 0 && !u.fenced

/-- An argument of TAP_OPEN sets a bit that its table does not assign (R392, R684). ARG5 is '0 otherwise' for the local and
the ring destination, so its bits are reserved there, and another value gets E_RESERVED_BIT and not E_RANGE (DESIGN CHOICE,
log entry 35). -/
def tapArgReserved (a : Nat → Word) : Bool :=
  let dest := field (a 3) 3 2
  resBits (a 0) 0x00FF || resBits (a 1) 0x0FFF || resBits (a 3) 0x001F || (dest = 1 && resBits (a 4) 0x00FF) ||
    (dest < 2 && a 5 != 0)

/-- An argument of TAP_OPEN is out of its range on every device (R389, R392, R399, R400). -/
def tapArgRange (a : Nat → Word) : Bool :=
  let dest := field (a 3) 3 2
  let conv := field (a 1) 11 8
  let form := bit (a 3) 0
  0x5A ≤ field (a 1) 7 0 || (8 ≤ conv && conv ≠ 15) || a 2 = 0 || dest = 3 ||
    (dest = 0 && !within (a 4).toNat 1 64) ||
    (dest = 2 && (a 4).toNat < 0x8000) || (dest = 2 && 0xA000 < (a 4).toNat + engWords form) ||
    (dest = 2 && a 5 ≠ 0xFFFF && !within (a 5).toNat 0x100 0x17F) || (bit (a 3) 1 && 0x20 ≤ field (a 1) 7 0)

/-- The checks of TAP_OPEN with arguments `a` before a converter is chosen (R389, R392, R399). -/
def tapArgCode (s : State) (a : Nat → Word) : Word :=
  firstFail [(tapArgReserved a, eReserved), (tapArgRange a || !tapSourceOk s (field (a 1) 7 0), eRange)]

/-- What this device finds in the arguments of a tap operation whose home is another device: checks 3 and 4 of R38, with
DEST 2 out of range (R399). -/
def tapFarCode (op : Word) (a : Nat → Word) : Word :=
  if op = 0x0501 then firstFail [(tapArgReserved a, eReserved), (tapArgRange a || field (a 3) 3 2 = 2, eRange)]
  else firstFail [(resBits (a 0) 0x00FF, eReserved)]

/-- The tap that an open makes. -/
def newTap (r : Req) (a : Nat → Word) (c : Nat) : Tap :=
  { conv := c, src := (a 1).setWidth 8, every := a 2, form := bit (a 3) 0, hush := bit (a 3) 1,
    dest := BitVec.ofNat 2 (field (a 3) 3 2), rdyirq := bit (a 3) 4, arg4 := a 4, arg5 := a 5, acct := acctOf r,
    skip := (a 2).toNat, cur := none, queue := [], seq := 0, lost := 0, lostAll := 0, gapNext := false,
    firstNext := true, count := 0 }

/-- Tap index i is opened on converter c, its first block, where it uses one, being allocated already. -/
def openTap (s : State) (r : Req) (a : Nat → Word) (c i : Nat) (resv : Option Bool) : State × List Word :=
  let s := { s with mea := { s.mea with gen := mset dGen9 s.mea.gen i (mget dGen9 s.mea.gen i + 1) } }
  let t := newTap r a c
  let t := { t with cur := resv.map (emptyBlock s i t) }
  let (o, x) : Owner × Nat := match r.eng with
    | some n => (.engine, n)
    | none => (.management, 0)
  let s := (s.setTap i (some t)).accept (uTap i) r.src
    fun u => { u with code := 1, owner := o, oidx := BitVec.ofNat 4 x, busy := false }
  let s := convFollow s c
  let rate := mcRate s c * 1000 / (periodsPerSample s c * (a 2).toNat)
  (s, [wd ((mget dGen9 s.mea.gen i).toNat * 128 + i), wd c, wd rate, wd (rate / 65536)])

/-- TAP_OPEN of a home tap (R389 to R394, R398 to R400). -/
def opTapOpen (s : State) (r : Req) (a : Nat → Word) : State × Word × List Word :=
  let src : Byte := (a 1).setWidth 8
  let named := field (a 1) 11 8
  let c? := if named = 15 then chooseConv s src else some named
  let early := tapArgCode s a
  if early ≠ eOk then (s, early, [])
  else
    let badHush := bit (a 3) 1 && (0x20 ≤ src.toNat || (match c? with
      | some c => !hushOk s c src
      | none => false))
    let code := firstFail [(badHush, eRange), (heldUnit s (uTap 0), eProof),
      (named ≠ 15 && (s.unit (uMc named)).fenced, eFenced),
      (named ≠ 15 && !bit (mcCfg s named) 0, eState)]
    if code ≠ eOk then (s, code, [])
    else match c?, freeTap s with
    | some c, some i =>
      if !convFits s c src then (s, eExhausted, [])
      else if field (a 3) 3 2 = 2 then
        let (s, rs) := openTap s r a c i none
        (s, eOk, rs)
      else match allocBlock s (acctOf r) with
      | none => (refused s, eExhausted, [])
      | some (resv, s) =>
        let (s, rs) := openTap s r a c i (some resv)
        (s, eOk, rs)
    | _, _ => (s, eExhausted, [])

-- handles

/-- The tap index that a handle names, while it is current (R395). -/
def currentTap (s : State) (h : Word) : Option (Nat × Tap) :=
  let i := field h 6 0
  if (mget dGen9 s.mea.gen i).toNat = field h 15 7 then (s.tap i).map fun t => (i, t) else none

/-- TAP_CLOSE of a home tap (R395 to R397). Every block goes back to the pool, the partly filled one of a ring tap unsent; a block whose
fragments are being sent is the ring's, is not counted, and goes back after the last of them (R405, R415, R460; DESIGN CHOICE,
log entry 79). -/
def opTapClose (s : State) (r : Req) (a : Nat → Word) : State × Word × List Word :=
  let i := field (a 1) 6 0
  let u := s.unit (uTap i)
  let code := firstFail [(resBits (a 0) 0x00FF, eReserved), (heldUnit s (uTap 0), eProof), (u.fenced, eFenced),
    (!reqOwns r u, eOwner), ((currentTap s (a 1)).isNone, eStale)]
  if code ≠ eOk then (s, code, [])
  else match currentTap s (a 1) with
  | none => (s, eStale, [])
  | some (i, t) =>
    let bs := t.queue ++ t.cur.toList
    let s := freeBlocks (s.setTap i none) t.acct bs
    let s := s.accept (uTap i) r.src fun u => { u with code := 0, busy := false }
    (convFollow s t.conv, eOk, [wd bs.length])

/-- TAP_INFO of a home tap (R392, R395); an inspection, which a fenced tap serves (R29). -/
def opTapInfo (s : State) (a : Nat → Word) : State × Word × List Word :=
  let code := firstFail [(resBits (a 0) 0x00FF, eReserved), (heldUnit s (uTap 0), eProof),
    ((currentTap s (a 1)).isNone, eStale)]
  if code ≠ eOk then (s, code, [])
  else match currentTap s (a 1) with
  | some (i, t) => (s, eOk, [(s.unit (uTap i)).word, wd (min t.queue.length 127), t.lostAll])
  | none => (s, eStale, [])

-- the selected queue (R417; 11_taps_and_measurement.md, "TAP registers")

/-- The queue that a requester has selected: a local tap's, or a collector queue. -/
def selQueue (s : State) (r : Req) : Option (List Block) :=
  let q := s.req r
  let coll := (s.mea.colq.find? fun x => x.dev = q.selDev && x.handle = q.selH).map (·.blocks)
  if q.selDev = devId s then
    match currentTap s q.selH with
    | some (_, t) => if t.dest = 0 then some t.queue else coll
    | none => coll
  else coll

/-- TAP_QST. -/
def qstWord (s : State) (r : Req) : Word :=
  match selQueue s r with
  | some l => wd (0x8000 + min l.length 127)
  | none => 0

/-- The word of the oldest block of the selection. -/
def selWord (s : State) (r : Req) (i : Nat) : Word :=
  match selQueue s r with
  | some (b :: _) => b.words.getD i 0
  | _ => 0

/-- The code of a write of TAP_POP. A handle of this device's own that is not current is refused, though a collector queue may
still hold its blocks (R395). -/
def popCode (s : State) (r : Req) (v : Word) : Word :=
  let q := s.req r
  firstFail [((selQueue s r).isNone || v != q.selH || (q.selDev == devId s && (currentTap s q.selH).isNone), eStale),
    (selQueue s r == some [], eState)]

/-- TAP_POP: the oldest block of the selection goes back to the pool. -/
def tapPopDo (s : State) (r : Req) : State :=
  let q := s.req r
  let popColl (s : State) : State :=
    match s.mea.colq.find? fun x => x.dev = q.selDev && x.handle = q.selH with
    | some x =>
      match x.blocks with
      | b :: _ =>
        let qs := s.mea.colq.map fun y =>
          if y.dev = q.selDev && y.handle = q.selH then { y with blocks := y.blocks.drop 1 } else y
        freeBlock { s with mea := { s.mea with colq := qs } } 9 b.resv
      | [] => s
    | none => s
  if q.selDev = devId s then
    match currentTap s q.selH with
    | some (i, t) =>
      if t.dest = 0 then
        match t.queue with
        | b :: bs => freeBlock (s.setTap i (some { t with queue := bs })) t.acct b.resv
        | [] => s
      else popColl s
    | none => popColl s
  else popColl s

-- converters

/-- The period boundary of converter c at the end of a conversion: what has changed takes effect, the current block of every
bound tap closes, and each next sample carries GAP (R387, R406); otherwise the next conversion starts, of the next source in
ascending code in multiplexed mode (R383). -/
def convBoundary (s : State) (c : Nat) : State :=
  let x := s.conv c
  if convMoved s c then convApply s c
  else slotStart (s.setConv c { x with slot := if x.slot + 1 < x.srcs.length then x.slot + 1 else 0, acc := 0 }) c

/-- How far a stamp may be from the end of its conversion, in units of 2^-32 s: one modulator cycle, 78.125 ns; for a hushed
conversion one switching period of the rail and 1 µs (R404). -/
def stampBound (s : State) (x : Conv) : Nat :=
  let ns := if x.hush = .hushed then 5 * (s.rail x.rail).per.toNat + 1000 else 78
  ns * 4294967296 / 1000000000

/-- Converter c gives no samples: it is ratiometric, and EXTREF is absent (R386). -/
def convSilent (s : State) (c : Nat) : Bool := !bit (s.conv c).cfg 1 && !s.mea.extrefOk

/-- CONVERSION_END: the conversion in progress at converter c ends, with its sample for every tap of the source (R385, R386,
R401 to R404), and the period boundary follows. Where several of those taps need a block, the lower index asks first (R412; DESIGN
CHOICE, log entry 79). A conversion that waits for its hush has not started (R401). -/
def convEnd (s : State) (c : Nat) (x : Sample) : State :=
  let u := s.unit (uMc c)
  let v := s.conv c
  if u.code ≠ 2 ∨ u.fenced ∨ v.source ≠ some x.src ∨ v.hush = .asked ∨ stampBound s v < x.err.natAbs then s
  else
    let stamp := s.now + BitVec.ofInt 64 x.err
    let s := if convSilent s c then s else ((boundTaps s c).foldl (fun s p => tapSample s p.1 x stamp) s).tick.tick
    convBoundary s c

/-- HUSH_WAIT_TIMEOUT (R402): the hush that converter c waits for has not begun in time, and is no longer asked for (DESIGN
CHOICE, log entry 44). -/
def hushTimeout (s : State) (c n : Nat) : State :=
  let x := s.conv c
  if x.hush = .asked ∧ x.rail = n then s.setConv c { x with hush := .unhushed } else s

/-- EXTREF_RETURN: the next sample of every tap on a ratiometric converter carries GAP (R406). -/
def extrefBack (s : State) : State :=
  if s.mea.extrefOk then s
  else
    let s := { s with mea := { s.mea with extrefOk := true } }
    (List.range 8).foldl
      (fun s c =>
        let cfg := if (s.conv c).srcs = [] then mcCfg s c else (s.conv c).cfg
        if bit cfg 1 then s else (boundTaps s c).foldl (fun s p => gapTap s p.1) s) s

-- the events of this chapter

/-- CONVERSION_END (R385). -/
def execConversionEnd (c : Fin 8) (x : Sample) (s : State) : Host.Outcome State Fault Refusal := done (convEnd s c.val x)

/-- HUSH_WAIT_TIMEOUT (R402). -/
def execHushWaitTimeout (c : Fin 8) (n : Fin 16) (s : State) : Host.Outcome State Fault Refusal :=
  done (hushTimeout s c.val n.val)

/-- EXTREF_LOSS (R386; MEA_EVT). -/
def execExtrefLoss (s : State) : Host.Outcome State Fault Refusal :=
  done (if s.mea.extrefOk then { s with mea := { s.mea with extrefOk := false } }.orReg 0x3023 2 else s)

/-- EXTREF_RETURN (R406). -/
def execExtrefReturn (s : State) : Host.Outcome State Fault Refusal := done (extrefBack s)

end Sys2Proof.Machine
end

