-- ==== Sys2Proof/Machine/Otp.lean ====
section
/-! DEFINITION. OTP and the kiln (18_otp_and_kiln.md), proofs and the test access port (19_proof.md). -/

namespace Sys2Proof.Machine

open Sys2Proof

-- OTP words

/-- The lock bit of an OTP word; the lock word has none but ALL (R616). -/
def wordLock (w : Nat) : Option Nat :=
  if w < 0x40 then some 0
  else if w < 0x60 then some 1
  else if w < 0x68 then some 0
  else if w < 0x70 then some 2
  else if w < 0x88 then some 0
  else if w < 0xFF then some 3
  else none

/-- The word is locked (R616, R617). -/
def wordLocked (s : State) (w : Nat) : Bool :=
  otpLock s 6 || (match wordLock w with
    | some i => otpLock s i
    | none => false)

/-- A copy of a word at the normal level: sound bits, and of the weak ones what the free value `f` has (R628). -/
def atNormal (low high f : Word) : Word := high ||| (low &&& f)

def lowA (s : State) (w : Nat) : Word := mget dZero s.otp.lowA w
def highA (s : State) (w : Nat) : Word := mget dZero s.otp.highA w
def lowB (s : State) (w : Nat) : Word := mget dZero s.otp.lowB w
def highB (s : State) (w : Nat) : Word := mget dZero s.otp.highB w

/-- Both copies of word w as they read at the normal level with the n-th pair of free values from now. -/
def normalPair (s : State) (w n : Nat) : Word × Word :=
  (atNormal (lowA s w) (highA s w) (Config.freeWeakBits (s.fresh + 2 * n)),
   atNormal (lowB s w) (highB s w) (Config.freeWeakBits (s.fresh + 2 * n + 1)))

/-- Requesters that may use OTP operations (R623). -/
def otpAdmits (r : Req) : Bool :=
  match r with
  | .engine _ | .ring | .floor => false
  | _ => true

/-- Checks 6, 9 and 11 of every OTP operation (R623). -/
def otpCommon (s : State) (r : Req) : List (Bool × Word) :=
  [(proofRun s ≠ 0, eProof), (!otpAdmits r, eOwner), (s.otp.kiln.isSome, eBusy)]

/-- KILN (R617, R622 to R625): it runs until KILN_DONE. -/
def opKiln (s : State) (r : Req) (a : Nat → Word) : State × Word × List Word :=
  let w := (a 0).toNat
  let c := firstFail ([(w = 0xFF && resBits (a 1) 0x007F, eReserved),
    (0xFF < w || a 1 = 0 || a 2 ≠ 0x6B1E, eRange), (wordLocked s w, eOtpLocked)] ++ otpCommon s r ++
    [(!kilnOk s, eState)])
  if c ≠ eOk then (s, c, [])
  else ({ s with otp := { s.otp with kiln := some { r := some r, word := w, bits := a 1 } } }, ePending, [])

/-- OTP_MREAD (R622, R628). -/
def opMread (s : State) (r : Req) (a : Nat → Word) : State × Word × List Word :=
  let w := (a 0).toNat
  let c := firstFail ([(0xFF < w || 2 < (a 1).toNat, eRange)] ++ otpCommon s r)
  if c ≠ eOk then (s, c, [])
  else match (a 1).toNat with
  | 1 => (s, eOk, [lowA s w, lowB s w, lowA s w ||| lowB s w])
  | 2 => (s, eOk, [highA s w, highB s w, highA s w ||| highB s w])
  | _ =>
    let p := normalPair s w 0
    ({ s with fresh := s.fresh + 2 }, eOk, [p.1, p.2, p.1 ||| p.2])

/-- The word holds a weak bit (R628). -/
def wordWeak (s : State) (w : Nat) : Bool := lowA s w != highA s w || lowB s w != highB s w

/-- OTP_SCAN (R622, R628). -/
def opScan (s : State) (r : Req) : State × Word × List Word :=
  let c := firstFail (otpCommon s r)
  if c ≠ eOk then (s, c, [])
  else
    let ws := List.range 256
    let weak := ws.filter fun w => wordWeak s w
    let differ := ws.filter fun w => (normalPair s w w).1 != (normalPair s w w).2
    let first := match weak with
      | w :: _ => wd w
      | [] => 0xFFFF
    ({ s with fresh := s.fresh + 512 }.orReg 0x6004 1, eOk, [wd weak.length, first, wd differ.length])

/-- The bits of `bits` that a kiln has pulsed after n pulses of one copy, in ascending order. -/
def pulsed (bits : Word) (n : Nat) : Word :=
  let on := ((List.range 16).filter fun i => bit bits i).take n
  on.foldl (fun (w : Word) i => w ||| wd (2 ^ i)) 0

/-- Cells of one copy after pulses: bits in `miss` are not changed, bits in `weak` read 1 at the low margin alone unless
they were sound. -/
def burn (low high p weak miss : Word) : Word × Word := (low ||| (p &&& ~~~miss), high ||| (p &&& ~~~miss &&& ~~~weak))

/-- What a kiln leaves at its end: the state, the code and the results (R625, R626, R630). `endedAfter` is the number of
pulses made where R626 ended it. -/
def kilnEnd (s : State) (k : Kiln) (weakA weakB missA missB : Word) (endedAfter : Option Nat) :
    State × Word × List Word :=
  let n := ((List.range 16).filter fun i => bit k.bits i).length
  let pa := match endedAfter with
    | some m => pulsed k.bits (min m n)
    | none => k.bits
  let pb := match endedAfter with
    | some m => pulsed k.bits (m - n)
    | none => k.bits
  let a := burn (lowA s k.word) (highA s k.word) pa weakA missA
  let b := burn (lowB s k.word) (highB s k.word) pb weakB missB
  let o := s.otp
  let s := { s with otp := { o with
    kiln := none
    lowA := mset dZero o.lowA k.word a.1, highA := mset dZero o.highA k.word a.2
    lowB := mset dZero o.lowB k.word b.1, highB := mset dZero o.highB k.word b.2 } }
  let p := normalPair s k.word 0
  let v := p.1 ||| p.2
  let s := { s with fresh := s.fresh + 2, otp := { s.otp with shown := mset dZero s.otp.shown k.word v } }
  let s := if k.word = 0xFF then s.orReg 0x6001 (v &&& 0x007F) else s
  let failA := k.bits &&& ~~~a.2
  let failB := k.bits &&& ~~~b.2
  match endedAfter with
  | some _ => (s.orReg 0x6004 3, eState, [k.bits &&& ~~~pa, k.bits &&& ~~~pb, v])
  | none =>
    if failA = 0 ∧ failB = 0 then (s.orReg 0x6004 1, eOk, [0, 0, v])
    else (s.orReg 0x6004 3, eOtpVerify, [failA, failB, v])

-- mailbox completion of a command that stayed PENDING

/-- The response to a remote request (R452): its kind, target and TAG, the final code, and the words it carries. -/
def responseTo (self : Byte) (m : Msg) (count : Nat) (code : Word) (ws : List Word) : Msg :=
  { kind := m.kind + 8, dst := m.src, src := self, tag := m.tag, count := BitVec.ofNat 8 count, code := code, data := ws }

/-- A response waits for a slot; the target keeps it with the TAG of its request (R456). -/
def ringAnswer (s : State) (m x : Msg) : State :=
  { s with ring := { s.ring with
      outR := s.ring.outR ++ [x], kept := mset dKept s.ring.kept m.src.toNat (some (m.tag, x)) } }

/-- The same on the floor bus (R499). -/
def floorAnswer (s : State) (m x : Msg) : State :=
  { s with floor := { s.floor with
      outR := s.floor.outR ++ [x], kept := mset dKept s.floor.kept m.src.toNat (some (m.tag, x)) } }

/-- A remote CMD request is answered when its operation completes (R50, R451, R459, R499). -/
def answerJob (s : State) (r : Req) (code : Word) (rs : List Word) : State :=
  let ws := [rs.getD 0 0, rs.getD 1 0, rs.getD 2 0, rs.getD 3 0]
  match r, s.ring.job, s.floor.job with
  | .ring, some m, _ =>
    ringAnswer (noteCode { s with ring := { s.ring with job := none } } .ring code) m (responseTo (ringSelf s) m 4 code ws)
  | .floor, _, some m =>
    floorAnswer (noteCode { s with floor := { s.floor with job := none } } .floor code) m (responseTo (ringSelf s) m 4 code ws)
  | _, _, _ => s

/-- A command completes in the bank of `r`: its results, its status, and the sequence number it carried (R42, R43,
R45). -/
def finishCmd (s : State) (r : Req) (code : Word) (rs : List Word) : State :=
  let q := putResults (s.req r) rs
  answerJob (s.setReq r { q with bank := mset dZero q.bank 0xA code, last := some (mget dZero q.bank 1) }) r code rs

/-- KILN_DONE (R625, R626): a kiln ends early only where its conditions failed during it. -/
def kilnDoneDo (s : State) (weakA weakB missA missB : Word) (endedAfter : Option Nat) : State :=
  match s.otp.kiln with
  | none => s
  | some k =>
    if k.ended != endedAfter.isSome then s
    else
      let (s, c, rs) := kilnEnd s k weakA weakB missA missB endedAfter
      match k.r with
      | some r => finishCmd s r c rs
      | none => s

-- proofs

/-- Requesters that may use proof operations (R632). -/
def proofAdmits (r : Req) : Bool :=
  match r with
  | .spt | .i2ca | .uart => true
  | _ => false

/-- PROOF_RUN (R632, R633). -/
def opProofRun (s : State) (r : Req) (a : Nat → Word) : State × Word × List Word :=
  let kind := (a 0).toNat
  let enginesFree := [0, 1, 2, 3].all fun n => (s.unit (uEng n)).code == 0 || (s.unit (uEng n)).fenced
  let memBad := kind = 1 && poolFree s < 1024
  let logBad := kind = 2 && ((List.range 8).any (fun c => bit (mcCfg s c) 0) || bit (s.reg 0x5000) 3)
  let c := firstFail [((kind ≠ 1 && kind ≠ 2) || a 1 ≠ 0x7E57, eRange), (!proofAdmits r, eOwner),
    (proofRun s ≠ 0 || s.otp.kiln.isSome, eBusy), (!enginesFree || memBad || logBad, eState)]
  if c ≠ eOk then (s, c, [])
  else (s.setReg 0x6800 ((s.reg 0x6800 &&& 0xFFFC) ||| wd kind), eOk, [])

/-- PROOF_ABORT (R632, R638). -/
def opProofAbort (s : State) (r : Req) : State × Word × List Word :=
  let c := firstFail [(!proofAdmits r, eOwner), (proofRun s = 0, eState)]
  if c ≠ eOk then (s, c, [])
  else ((proofEnds s 0 true false 0).orReg 0x6807 1, eOk, [])

/-- The lowest OTP signature entry for this silicon step (R621, R637). -/
def sigEntry (s : State) : Option Nat := [0, 1, 2, 3].find? fun e => mget dZero s.otp.shown (0x70 + 6 * e) == 0x00B0

/-- PROOF_DONE (R637). -/
def proofDoneDo (s : State) (sig : BitVec 32) (sramFail poolFail : Bool) : State :=
  let kind := proofRun s
  if kind = 0 then s
  else
    let mfail := kind = 1 && (sramFail || poolFail)
    let expect : BitVec 32 := match sigEntry s with
      | some e =>
        let o := 0x70 + 6 * e + (if kind = 1 then 1 else 3)
        mget dZero s.otp.shown (o + 1) ++ mget dZero s.otp.shown o
      | none => 0
    let result := if mfail then 2 else match sigEntry s with
      | some _ => if sig = expect then 1 else 2
      | none => 3
    let s := if kind = 1 then s.setReg 0x6801 (wd (flag sramFail 0 + flag poolFail 1)) else s
    let s := (s.setPair 0x6802 sig).setPair 0x6804 expect
    (proofEnds s result false false ((sigEntry s).getD 0)).orReg 0x6807 1

/-- PROOF_TIMEOUT (R638). -/
def proofTimeoutDo (s : State) : State :=
  if proofRun s = 0 then s else (proofEnds s 2 false true 0).orReg 0x6807 1

-- the test access port

/-- EXTEST and HIGHZ may take effect (R643, R644). -/
def scanPermitted (s : State) : Bool := s.boot.phase = .ready && allRailsOff s && !otpLock s 5

-- the events of these chapters

/-- KILN_DONE (R625). -/
def execKilnDone (weakA weakB missA missB : Word) (endedAfter : Option (Fin 33)) (s : State) :
    Host.Outcome State Fault Refusal :=
  done (kilnDoneDo s weakA weakB missA missB (endedAfter.map (·.val)))

/-- PROOF_DONE (R637). -/
def execProofDone (sig : BitVec 32) (sramFail poolFail : Bool) (s : State) : Host.Outcome State Fault Refusal :=
  done (proofDoneDo s sig sramFail poolFail)

/-- PROOF_TIMEOUT (R638). -/
def execProofTimeout (s : State) : Host.Outcome State Fault Refusal := done (proofTimeoutDo s)

end Sys2Proof.Machine
end

