-- ==== Sys2Proof/Machine/Timers.lean ====
section
/-! DEFINITION. The timebase, timers TMR0 to TMR7, and the real-time clock (17_timers_and_rtc.md). -/

namespace Sys2Proof.Machine

open Sys2Proof

/-- TMRn_ST.FROZEN (R600). -/
def timerFrozen (s : State) (n : Nat) : Bool :=
  let c := s.reg (tmrAddr n 1)
  bit c 8 && (s.eng (field c 10 9)).halted

/-- The period of a periodic timer, in ns: (BUF + 1) × (PSC + 1) × 40 ns (R592). -/
def timerPeriod (s : State) (n : Nat) : Nat :=
  ((s.reg (tmrAddr n 5)).toNat + 1) * ((s.reg (tmrAddr n 2)).toNat + 1) * 40

/-- The timer is OFF or fenced, so that its output is at IDLE (R599). -/
def timerIdle (s : State) (n : Nat) : Bool := (s.unit (uTmr n)).fenced || (s.unit (uTmr n)).code == 0

/-- Level of TMRn_OUT (TMRn_ST.OUT). -/
def timerOut (s : State) (n : Nat) : Bool :=
  if timerIdle s n then bit (s.reg (tmrAddr n 1)) 6 else (s.timer n).out

/-- A pin action (R598): 1 high, 2 low, 3 toggle. -/
def pinAct (a : Nat) (out : Bool) : Bool :=
  match a with
  | 1 => true
  | 2 => false
  | 3 => !out
  | _ => out

/-- A tick in which the count takes the value c: events and pin (R593, R598). -/
def timerCount (s : State) (n : Nat) (c : Word) : State :=
  let cfg := s.reg (tmrAddr n 1)
  let zero := c == 0
  let mat := c == s.reg (tmrAddr n 6)
  let t := s.timer n
  let out := if bit cfg 7 then
      (if zero then pinAct (field cfg 3 2) t.out else if mat then pinAct (field cfg 5 4) t.out else t.out)
    else t.out
  ((s.setTimer n { t with out := out, loaded := false }).setReg (tmrAddr n 4) c).orReg (tmrAddr n 7)
    (wd (flag zero 0 + flag mat 1))

/-- TIMER_TICK (R592 to R595, R600). -/
def timerTickDo (s : State) (n : Nat) : State :=
  let t := s.timer n
  let u := s.unit (uTmr n)
  if !t.run || u.fenced || u.code != 2 || timerFrozen s n then s
  else
    let c := s.reg (tmrAddr n 4)
    if t.loaded then timerCount s n c
    else if c ≠ 0 then timerCount s n (c - 1)
    else if bit (s.reg (tmrAddr n 1)) 1 then (s.setTimer n { t with run := false }).setCode (uTmr n) 1
    else timerCount (s.setTimer n { t with bufNew := false }) n (s.reg (tmrAddr n 5))

/-- A live write of CNT, BUF or MATCH starts towards the island (R595). -/
def timerSend (s : State) (n : Nat) (which : TimerWord) (w : Word) : State :=
  s.setTimer n { s.timer n with landing := (s.timer n).landing ++ [(which, w)] }

/-- TIMER_WRITE_LANDS: the oldest write of that word takes effect, and with it, before it, every write issued earlier
(R17, R595). -/
def timerLand (s : State) (n : Nat) (which : TimerWord) : State :=
  match (s.timer n).landing.findIdx? fun p => p.1 = which with
  | some k => landFirst s n (k + 1)
  | none => s

/-- TMRn_CTRL written with START or STOP (R596): after every live write issued before it has landed (R17; DEDUCED, log
entry 37). STOP, the higher bit, has the last word. -/
def timerCtrl (s : State) (n : Nat) (w : Word) : State :=
  let s := if bit w 0 || bit w 1 then landFirst s n (s.timer n).landing.length else s
  let s := if bit w 0 then (s.setTimer n { s.timer n with run := true }).setCode (uTmr n) 2 else s
  if bit w 1 ∧ (s.unit (uTmr n)).code = 2 then
    (s.setTimer n { s.timer n with run := false }).setCode (uTmr n) 1
  else s

/-- The code of a write of TMRn_CTRL (R29, R596). -/
def timerCtrlCode (s : State) (n : Nat) (w : Word) : Word :=
  firstFail [((s.unit (uTmr n)).fenced, eFenced), (bit w 0 && (s.unit (uTmr n)).code == 0, eState)]

/-- GPIO_IN: the level of ball n. -/
def ballLevel (s : State) (n : Nat) : Bool :=
  if bit (s.reg (tmrAddr n 1)) 7 then timerOut s n
  else if bit (s.reg 0x5880) n then bit (s.reg 0x5881) n
  else s.gpioIn.toNat.testBit n

-- the calendar

/-- RTC_CAL0 to RTC_CAL2. -/
def calWords (r : Rtc) : Word × Word × Word := (wd (r.sec + 256 * r.min), wd (r.hour + 256 * r.day), wd (r.mon + 256 * r.year))

/-- The calendar one second later (R602). -/
def nextSecond (r : Rtc) : Rtc :=
  let r := { r with sub := 0 }
  if r.sec < 59 then { r with sec := r.sec + 1 }
  else if r.min < 59 then { r with sec := 0, min := r.min + 1 }
  else if r.hour < 23 then { r with sec := 0, min := 0, hour := r.hour + 1 }
  else
    let r := { r with sec := 0, min := 0, hour := 0 }
    if r.day < monthDays r.year r.mon then { r with day := r.day + 1 }
    else if r.mon < 12 then { r with day := 1, mon := r.mon + 1 }
    else { r with day := 1, mon := 1, year := if r.year < 99 then r.year + 1 else 0 }

/-- Alarm k matches the calendar: every field whose mask bit is 0 (R606). -/
def alarmMatches (s : State) (k : Nat) : Bool :=
  let a0 := s.reg (0x5910 + 4 * k)
  let a1 := s.reg (0x5911 + 4 * k)
  let a2 := s.reg (0x5912 + 4 * k)
  let r := s.rtc
  bit a2 8 && (bit a0 7 || field a0 5 0 = r.sec) && (bit a0 15 || field a0 13 8 = r.min) &&
    (bit a1 7 || field a1 4 0 = r.hour) && (bit a1 15 || field a1 12 8 = r.day) && (bit a2 7 || field a2 3 0 = r.mon)

/-- RTC_SECOND (R602, R606): the crystal runs. -/
def rtcSecondDo (s : State) : State :=
  let s := { s with rtc := { nextSecond s.rtc with oscok := !s.present 9 3 } }
  let s := if alarmMatches s 0 then s.orReg 0x5924 1 else s
  if alarmMatches s 1 then s.orReg 0x5924 2 else s

/-- The date in the set buffer exists (R605). -/
def setDateOk (s : State) : Bool :=
  let d := field (s.reg 0x5909) 12 8
  let m := field (s.reg 0x590A) 3 0
  1 ≤ d && within m 1 12 && d ≤ monthDays (field (s.reg 0x590A) 14 8) m

/-- RTC_CTRL.SET (R605). -/
def rtcSet (s : State) : State :=
  { s with rtc := { s.rtc with sec := field (s.reg 0x5908) 5 0, min := field (s.reg 0x5908) 13 8
                               hour := field (s.reg 0x5909) 4 0, day := field (s.reg 0x5909) 12 8
                               mon := field (s.reg 0x590A) 3 0, year := field (s.reg 0x590A) 14 8
                               sub := 0, valid := true } }

/-- CD: the countdown advances one unit (R607). -/
def countdown (s : State) : State :=
  let cfg := s.reg 0x5920
  let n := s.reg 0x5921
  if !bit cfg 3 || n = 0 then s
  else if n = 1 then (s.setReg 0x5921 (if bit cfg 2 then s.reg 0x5922 else 0)).orReg 0x5924 4
  else s.setReg 0x5921 (n - 1)

/-- SWOVER (R609, R650): VDD_AON has fallen to the switchover threshold, within its tolerance. -/
def rtcSwover (s : State) (aonMv : Nat) : State :=
  if s.rtc.onbat || 1690 < aonMv then s
  else { s with rtc := { s.rtc with lock := true, onbat := true } }.orReg 0x5924 8

/-- SWBACK (R612, R650): VDD_AON has stayed above the threshold. -/
def rtcSwback (s : State) (aonMv : Nat) : State :=
  if !s.rtc.onbat || aonMv < 1630 then s
  else { s with rtc := { s.rtc with lock := false, onbat := false } }.orReg 0x5924 0x10

/-- RTC_RESTART (R613): the whole RTC island starts afresh. -/
def rtcRestartDo (s : State) : State :=
  { s with rtc := {}, supply := { s.supply with revLatch := false }
           regs := s.regs.filter fun p => !(0x5900 ≤ p.1 && p.1 < 0x5A00) }

-- device time

/-- Days from 2000-01-01 to the calendar's date (R602). -/
def daysSince2000 (r : Rtc) : Nat :=
  let years := r.year * 365 + (r.year + 3) / 4
  let months := ((List.range (r.mon - 1)).map fun m => monthDays r.year (m + 1)).foldl (· + ·) 0
  years + months + (r.day - 1)

/-- Seconds since 2000-01-01T00:00:00 (R614). -/
def calSeconds (r : Rtc) : Nat := ((daysSince2000 r * 24 + r.hour) * 60 + r.min) * 60 + r.sec

/-- The IEEE 1588 timestamp of a device time: secondsField and nanosecondsField (R55). -/
def ieeeTime (t : BitVec 64) : Nat × Nat :=
  (t.toNat / 4294967296 + 946684800, t.toNat % 4294967296 * 1000000000 / 4294967296)

/-- The POSIX-style UTC seconds of a device time with GLB_TAI_UTC as the host keeps it (R54, R56). -/
def utcSeconds (s : State) (t : BitVec 64) : Int := (t.toNat / 4294967296 : Nat) + 946684800 - (s.reg 0x001C).toInt

/-- Transmit times of ring markers taken before a step of device time serve no measurement after it (DESIGN CHOICE, log
entry 9). -/
def forgetMarkers (s : State) : State :=
  [1, 3].foldl (fun s n => s.setLane n { s.lane n with sentAt := [] }) s

/-- Device time steps: the TIME_STEP entry is accepted at the time before (R291). -/
def timeStep (s : State) (t : BitVec 64) : State :=
  let s := logPut s 0x09 false (timeWords s.now ++ timeWords t)
  forgetMarkers { s with clock := { s.clock with t := t, frac := 0, slew := 0 } }

/-- TIME_SEED (R615): it completes after the step. -/
def opTimeSeed (s : State) (r : Req) : State × Word × List Word :=
  let ringHeld := ringTimeOk s && !ringMaster s
  if !s.rtc.valid || s.rtc.lock || ringHeld then (s, eState, [])
  else ({ s with clock := { s.clock with seed := s.clock.seed ++ [r] } }, ePending, [])

/-- DEVICE_TIME_SEED (R614, R615). Until this start has written its RESET entry, which is the log's first, the step waits
for a later second (R296; DEDUCED, log entry 28). -/
def timeSeedDo (s : State) : State :=
  if !logStarted s || (!(s.clock.porSeed && s.rtc.valid) && s.clock.seed.isEmpty) then s
  else
    let rs := s.clock.seed
    let s := timeStep { s with clock := { s.clock with porSeed := s.clock.porSeed && !s.rtc.valid, seed := [] } }
      (BitVec.ofNat 64 (calSeconds s.rtc * 4294967296))
    rs.foldl (fun s r => finishCmd s r eOk []) s

/-- TB_LOCKED (R588): the lock is reached, so the reference is present. -/
def tbLockedDo (s : State) : State :=
  if bit (s.reg 0x5890) 0 then (s.setReg 0x5891 3).condOff 9 1 else s

/-- TB_LOCK (R590): LOCKEN is 1 and LOCKED is 0 for longer than the rule allows. -/
def tbLockDo (s : State) : State :=
  if bit (s.reg 0x5890) 0 then
    ((s.setReg 0x5891 (wd (flag (Config.freeRefOk s.fresh) 1))).tick).condOn 9 1 0
  else s

-- the events of this chapter

/-- TIMER_TICK (R592). -/
def execTimerTick (n : Fin 8) (s : State) : Host.Outcome State Fault Refusal := done (timerTickDo s n.val)

/-- TIMER_WRITE_LANDS (R595). -/
def execTimerWriteLands (n : Fin 8) (which : TimerWord) (s : State) : Host.Outcome State Fault Refusal :=
  done (timerLand s n.val which)

/-- TB_LOCKED (R588). -/
def execTbLocked (s : State) : Host.Outcome State Fault Refusal := done (tbLockedDo s)

/-- TB_LOCK (R590). -/
def execTbLock (s : State) : Host.Outcome State Fault Refusal := done (tbLockDo s)

/-- RTC_OSC (R590). -/
def execRtcOsc (s : State) : Host.Outcome State Fault Refusal :=
  done ({ s with rtc := { s.rtc with oscok := false } }.condOn 9 3 0)

/-- RTC_SECOND (R606). -/
def execRtcSecond (s : State) : Host.Outcome State Fault Refusal := done (rtcSecondDo s)

/-- CD (R607). -/
def execCd (s : State) : Host.Outcome State Fault Refusal := done (countdown s)

/-- SWOVER (R609). -/
def execSwover (aonMv : Nat) (s : State) : Host.Outcome State Fault Refusal := done (rtcSwover s aonMv)

/-- SWBACK (R612). -/
def execSwback (aonMv : Nat) (s : State) : Host.Outcome State Fault Refusal := done (rtcSwback s aonMv)

/-- RTC_RESTART (R613). -/
def execRtcRestart (s : State) : Host.Outcome State Fault Refusal := done (rtcRestartDo s)

/-- DEVICE_TIME_SEED (R614). -/
def execDeviceTimeSeed (s : State) : Host.Outcome State Fault Refusal := done (timeSeedDo s)

end Sys2Proof.Machine
end

