-- ==== Sys2Proof/Machine/Ring.lean ====
section
/-! DEFINITION. The device ring: cycles received and sent, lanes, time, barriers, streams and the requester's side of
remote access (12_device_ring.md). -/

namespace Sys2Proof.Machine

open Sys2Proof

-- lanes

/-- A saturating 16-bit counter register rises by n. -/
def satAdd (s : State) (a n : Nat) : State := s.setReg a (wd (min 65535 ((s.reg a).toNat + n)))

/-- A saturating 32-bit counter pair rises by n. -/
def satAddPair (s : State) (lo n : Nat) : State :=
  s.setPair lo (BitVec.ofNat 32 (min 4294967295 ((s.pair lo).toNat + n)))

/-- One step of lane n's error counter (R433): up by `errs`, or down by one where there was none; WARN at 96, MUTED at
256, and UP again below 96 (R434). -/
def laneStep (s : State) (n errs : Nat) : State :=
  let x := s.lane n
  let new := if errs = 0 then x.cnt - 1 else min 511 (x.cnt + errs)
  let s := s.setLane n { x with cnt := new }
  let s := if x.cnt < 96 ∧ 96 ≤ new then s.orReg (laneAddr n 8) 2 else s
  let c := (s.unit (uLane n)).code
  if x.cnt < 256 ∧ 256 ≤ new ∧ c = 2 then (laneMove s n 3).occur 4 (4 + n) 0
  else if c = 3 ∧ new < 96 then laneMove s n 2
  else s

-- what a cycle brings

/-- The device is present on the ring (R430, RING_PRES). -/
def ringPresent (s : State) (k : Nat) : Bool :=
  ringOn s && (laneCarries s 0 || laneCarries s 2) && mget dAge s.ring.age k < 16

/-- The ring whose cycles this device counts: ring 0, or ring 1 while LANE0 brings none. -/
def refRing (s : State) (ring1 : Bool) : Bool := ring1 == !laneCarries s 0

/-- The ring on which management slots and stream fragments reach this device: ring 0, and beside a break at the west port
the other half of the loop (R436, R453). On it alone the device places messages and collects fragments, so that each is
met once a cycle. -/
def msgRing (s : State) (ring1 : Bool) : Bool := ring1 == (s.ring.loopW || !laneCarries s 0)

/-- A received cycle is part of ring 0, or of the single loop during wrap: its slots are handled (R453). -/
def msgPass (s : State) (ring1 : Bool) : Bool :=
  if ring1 then (s.ring.loopW || ringWrapNow s) && !s.ring.loopE else !s.ring.loopW

/-- The better of two candidates: higher PRI, then lower ID (R438). -/
def betterOf (a b : Option (BitVec 2 × Byte)) : Option (BitVec 2 × Byte) :=
  match a, b with
  | none, y => y
  | x, none => x
  | some x, some y =>
    if x.1.toNat > y.1.toNat ∨ (x.1 = y.1 ∧ x.2.toNat ≤ y.2.toNat) then some x else some y

/-- This device as a candidate (R438). -/
def selfCandidate (s : State) : Option (BitVec 2 × Byte) :=
  match field (s.reg 0x4000) 2 1 with
  | 0 => some (1, ringSelf s)
  | 1 => some (2, ringSelf s)
  | _ => none

/-- The best candidate heard in the last 16 cycles. -/
def bestHeard (s : State) : Option (BitVec 2 × Byte) :=
  s.ring.cands.foldl (fun b c => betterOf b (some (c.1, c.2.1))) none

/-- One cycle passes on the counted ring: ages of devices, of the candidates heard and of the master's name, the quiet run of
the emergency container, the cycles without good time, and the good runs of the two links (R430, R437 to R439, R446,
R462). -/
def ringCount (s : State) (alarm : Bool) : State :=
  let g := s.ring
  let age := (List.range 256).foldl (fun m k => mset dAge m k (satInc (mget dAge g.age k) 16)) g.age
  let quiet := if alarm then g.quiet else satInc g.quiet 512
  let good (a b run : Nat) : Nat := if laneGood s a && laneGood s b then satInc run 1000 else 0
  { s with ring := { g with
      age := age
      cands := (g.cands.map fun c => (c.1, c.2.1, c.2.2 + 1)).filter fun c => c.2.2 < 16
      nameAge := satInc g.nameAge 16
      quiet := quiet
      relayed := if quiet = 512 ∧ ¬alarm then 0 else g.relayed
      badRun := satInc g.badRun 1000001
      goodW := good 0 3 g.goodW
      goodE := good 1 2 g.goodE } }

/-- The emergency container (R461, R462): the alarm after 512 cycles of none is an event, and the master relays its first
reception. -/
def ringAlarm (s : State) (alarm : Bool) : State :=
  if !alarm then s
  else
    let s := if 512 ≤ s.ring.quiet then s.orReg 0x4008 0x20 else s
    let first := ringMaster s && s.ring.relayed = 0
    { s with ring := { s.ring with
        quiet := 0, relayed := if first then 1 else s.ring.relayed, relayN := if first then [] else s.ring.relayN } }

/-- The ring finds another device with its own ID (R463). -/
def ringDup (s : State) : State :=
  if s.ring.dup then s
  else (({ s with ring := { s.ring with dup := true } }).orReg 0x4008 0x10).condOn 4 0xA 0

-- time (R442 to R446)

/-- A result in RING_OFS or RING_MPD; a free value where it does not fit. -/
def putPs (s : State) (lo : Nat) (x : Int) : State :=
  if -2147483648 ≤ x ∧ x ≤ 2147483647 then s.setPair lo (BitVec.ofInt 32 x)
  else (s.setPair lo (Config.freeOffset s.fresh)).tick

/-- Device time in units of 2^-32 s / 390625. -/
def clockUnits (s : State) : Int := (s.clock.t.toNat : Int) * 390625 + (s.clock.frac : Int)

/-- An instant of those units, as a 64-bit time (R683). -/
def timeOf (x : Int) : BitVec 64 := BitVec.ofInt 64 (Int.fdiv x 390625)

/-- One picosecond in 10000ths of those units. -/
abbrev psUnits : Int := 16777216

/-- The on-die delay of a lane's marker, in units of 2^-32 s / 390625 rounded down (R443, R619). -/
def markerDelay (s : State) (n : Nat) : Int := Int.fdiv (sgn (calWord s (20 + n)) * psUnits) 10000

/-- n sixteenths of a symbol of 56 GBd, the resolution of a marker time (R422, R443), in those units rounded down (DESIGN CHOICE, log
entry 9). -/
def sixteenths (n : Nat) : Int := ((n * 65536 / 35 : Nat) : Int)

/-- The instant at which a marker crossed the ball, corrected for on-die delay (R443): a received one crossed it before the
device found it, a sent one after the device sent it (DEDUCED, log entry 9). -/
def rxInstant (s : State) (x : RingRx) : Int := clockUnits s + sixteenths x.inst.val - markerDelay s (rxLane x.ring1)
def txInstant (s : State) (ln inst : Nat) : Int := clockUnits s + sixteenths inst + markerDelay s ln

/-- One measurement with twice the offset, `a`, and twice the mean path delay, `b`, in 10000ths of a unit (R444 to R446). The
slew is rounded to a whole unit, 6 × 10^-16 s, towards 0 (DESIGN CHOICE, log entry 9). -/
def ringMeasured (s : State) (a b : Int) : State :=
  let s := (putPs s 0x400A (roundFree (Config.freeRoundUp s.fresh) a (2 * 16777216))).tick
  let s := (putPs s 0x400C (roundFree (Config.freeRoundUp s.fresh) b (2 * 16777216))).tick
  let units := Int.tdiv a 20000
  let s := if 20000000 * psUnits ≤ a.natAbs then
      (timeStep s (timeOf (clockUnits s - units))).orReg 0x4008 8
    else { s with clock := { s.clock with slew := -units } }
  { s with ring := { s.ring with okRun := if (a.natAbs : Int) < 200000 * psUnits then satInc s.ring.okRun 16 else 0 } }

/-- The two-way measurement of a received cycle, where it came from the upstream side, this device is not the master, and the
transmit time t3 of the marker that the neighbour names is known (R442 to R444). -/
def ringTime (s : State) (x : RingRx) (b : Option Beacon) : State :=
  match b with
  | none => s
  | some b =>
    if ringMaster s || x.ring1 != upEast s then s
    else match (s.lane (txLane (!x.ring1))).sentAt.find? fun p => p.1 == b.cycRx with
    | none => s
    | some p =>
      let t1 : Int := b.tTx.toNat * 390625 + sixteenths x.fineTx.val
      let t2 := rxInstant s x
      let t4 : Int := b.tRx.toNat * 390625 + sixteenths x.fineRx.val
      let asym := sgn (s.reg (if x.ring1 then 0x4007 else 0x4006))
      ringMeasured s (10000 * ((t2 - t1) - (t4 - p.2)) - psUnits * asym) (10000 * ((t2 - t1) + (t4 - p.2)))

-- streams (R460)

/-- A stream block from its 64 words (R403). -/
def Block.ofWords (ws : List Word) : Block :=
  let w (i : Nat) : Word := ws.getD i 0
  let form := bit (w 1) 8
  let n := (if form then 2 else 1) * field (w 1) 5 0
  { handle := w 0, form := form, gap := bit (w 1) 9, nh := bit (w 1) 10, first := bit (w 1) 11, refInt := bit (w 1) 12,
    seq := w 2, lost := w 3, stamp := (w 7) ++ (w 6) ++ (w 5) ++ (w 4), spacing := (w 9) ++ (w 8),
    data := (ws.drop 10).take n, resv := false }

/-- The partly received block of a source. -/
def fragOf (s : State) (src : Byte) : Option Frag := s.ring.frags.find? fun f => f.src = src

def putFrag (s : State) (f : Frag) : State :=
  { s with ring := { s.ring with frags := f :: s.ring.frags.filter fun g => g.src != f.src } }

/-- A whole block is stored. Where the block before it in its stream (W2, R403) was not received whole, it was discarded: this
one carries GAP, and its W3 reads 0xFFFF. -/
def fragWhole (s : State) (src : Byte) (ws : List Word) : State :=
  let b := Block.ofWords ws
  let hit := fun (p : Byte × Word × Word) => p.1 == src && p.2.1 == b.handle
  let last := (s.ring.streams.find? hit).map (·.2.2)
  let lost := !b.first && last != some (b.seq - 1)
  let s := { s with ring := { s.ring with
    streams := (src, b.handle, b.seq) :: s.ring.streams.filter fun p => !hit p } }
  collect s src (if lost then { b with gap := true, lost := 0xFFFF } else b)

/-- One stream fragment for this collector in cycle `cyc`: the next of its block, in the cycle after the one before it, goes on;
FRAG 0 begins one; and any other discards what there is of the block. -/
def fragTake (s : State) (cyc : BitVec 32) (c : Container) : State :=
  let i := c.frag.val
  let on := match fragOf s c.src with
    | some f => if f.seq = c.seq ∧ f.next = i ∧ 0 < i ∧ f.cyc + 1 = cyc then some f else none
    | none => none
  match on with
  | some f =>
    let f := { f with next := i + 1, cyc := cyc, data := f.data ++ c.payload }
    let s := putFrag s f
    if i = 3 then fragWhole s c.src f.data else s
  | none =>
    if i = 0 then putFrag s { src := c.src, seq := c.seq, next := 1, cyc := cyc, data := c.payload }
    else { s with ring := { s.ring with frags := s.ring.frags.filter fun g => g.src != c.src } }

/-- The containers written on a ring that are still on their way once `bs` has come round, with at most `n` before it missing; none
where `bs` is not among those. -/
def cameRound (s : State) (ring1 : Bool) (n : Nat) (bs : List Byte) : Option (List (List Byte)) :=
  let w := mget dWrote s.ring.wrote (b2n ring1)
  ((w.take (n + 1)).findIdx? (· == bs)).map fun i => w.drop (i + 1)

/-- What this device wrote on ring `out` has come round on a ring: it is due there in the order in which it left. -/
def ownCame (s : State) (ring1 out : Bool) (w : List (List Byte)) : State :=
  { s with ring := { s.ring with
      wrote := mset dWrote s.ring.wrote (b2n out) w, due := mset dDue s.ring.due (b2n ring1) (some 0) } }

/-- Under its own number a device must find a container that it wrote, and what it wrote comes round in the order in which it left;
a cycle whose own container cannot be read, `none`, may have lost one (R463). During wrap what it sent on one ring comes back
on the other. Where the ring has not brought one since it last changed, any that it wrote on either may be next. That a container
with the same bytes counts as its own is this model's reading (DEDUCED, log entry 69). -/
def ownTake (s : State) (ring1 : Bool) (own : Option (List Byte)) : State :=
  let r := ring1 != ringWrapNow s
  match mget dDue s.ring.due (b2n ring1), own with
  | none, none => s
  | some n, none => { s with ring := { s.ring with due := mset dDue s.ring.due (b2n ring1) (some (satInc n 1024)) } }
  | some n, some bs => match cameRound s r n bs with
    | some w => ownCame s ring1 r w
    | none => ringDup s
  | none, some bs => match cameRound s r 1024 bs, cameRound s (!r) 1024 bs with
    | some w, _ => ownCame s ring1 r w
    | none, some w => ownCame s ring1 (!r) w
    | none, none => ringDup s

/-- The container that a place brought, where it has a right CRC and is one of the device whose number it has (R429). -/
def containerAt (p : Option (List Byte) × Nat) : Option Container :=
  (p.1.bind containerOf).filter fun c => c.present && c.src.toNat == p.2

/-- The telemetry container at place k (R429, R430, R450, R460, R463): one of the device whose number it has, with a correct
CRC. -/
def containerTake (ring1 : Bool) (s : State) (p : Option (List Byte) × Nat) : State :=
  let k := p.2
  let c := containerAt p
  let s := if k = (ringSelf s).toNat then ownTake s ring1 (c.bind fun _ => p.1) else s
  match c with
  | none => s
  | some c =>
    let s := { s with ring := { s.ring with
      age := mset dAge s.ring.age k 0
      waits := mset dWait s.ring.waits k (if c.waiting then some c.barrier else none) } }
    if msgRing s ring1 && c.stream && c.dst == ringSelf s && c.src != ringSelf s then
      fragTake s (if ring1 then s.ring.east.cyc else s.ring.west.cyc) c
    else s

-- barriers (R450)

/-- Present devices that wait at barrier b. -/
def ringWaiting (s : State) (b : Byte) : Nat :=
  (s.ring.waits.filter fun p => p.2 == some b && ringPresent s p.1).length

def ringPresentCount (s : State) : Nat := ((List.range 256).filter fun k => ringPresent s k).length

/-- The master releases each barrier that enough present devices wait at. -/
def ringRelease (s : State) : State :=
  if !ringMaster s then s
  else
    let bs := s.ring.waits.filterMap fun p => if ringPresent s p.1 then p.2 else none
    let all := ringPresentCount s
    let rel := bs.foldl (fun (m : BitVec 256) b =>
      let n := (s.reg (0x4100 + b.toNat)).toNat
      let w := ringWaiting s b
      if (n = 0 ∧ w = all) ∨ (0 < n ∧ n ≤ w) then m ||| (1#256 <<< b.toNat) else m) s.ring.release
    { s with ring := { s.ring with release := rel } }

/-- The cycles in a row that each released barrier has had no device waiting at it. -/
def barrierRuns (s : State) : State :=
  let run := (List.range 256).foldl (fun m b =>
    let n := if s.ring.release.getLsbD b && ringWaiting s (BitVec.ofNat 8 b) == 0 then satInc (mget dNat m b) 1000 else 0
    mset dNat m b n) s.ring.barRun
  { s with ring := { s.ring with barRun := run } }

/-- Sixteen bits of a release map. -/
def putSlice (m : BitVec 256) (i : BitVec 4) (w : Word) : BitVec 256 :=
  (m &&& ~~~(0xFFFF#256 <<< (16 * i.toNat))) ||| (w.setWidth 256 <<< (16 * i.toNat))

-- slots (R453, R459)

/-- The message is a request (R452). -/
def isRequest (m : Msg) : Bool := m.kind == 1 || m.kind == 2 || m.kind == 3

/-- A slot that arrived empty, with a right CRC. -/
def slotFree (p : Option (List Byte)) : Bool :=
  match p with
  | some bs => crcGood bs && (slotMsg bs).isNone
  | none => false

/-- The message of a slot with a right CRC that this device takes: one for it. -/
def slotTaken (s : State) (p : Option (List Byte)) : Option Msg :=
  match p with
  | some bs => if crcGood bs then (slotMsg bs).filter fun m => m.dst == ringSelf s else none
  | none => none

/-- A slot as it is forwarded: empty where it was taken, came round untaken, failed its CRC or was discarded; unchanged
otherwise. A request of this device has come round where it is met again on the ring on which it was placed, `mine`. With DUP
at 1 everything is forwarded (R463). -/
def slotOn (s : State) (mine : Bool) (p : Option (List Byte)) : List Byte :=
  match p with
  | none => emptySlot
  | some bs =>
    if !crcGood bs then emptySlot
    else match slotMsg bs with
    | none => bs
    | some m => if !s.ring.dup && (m.dst == ringSelf s || (mine && m.src == ringSelf s && isRequest m)) then emptySlot else bs

/-- What a ring's output is fed from: the same ring's input, or the other's where this device loops (R436). -/
def feedEast (s : State) (ring1 : Bool) : Bool := if ring1 then !s.ring.loopE else s.ring.loopW

/-- The output ring that the slots received on a ring go to: where this device loops, the loop. -/
def slotOut (s : State) (ring1 : Bool) : Bool := if ring1 then !s.ring.loopW else s.ring.loopE

/-- The message that leaves next: responses in their order, then requests. At most one leaves in a cycle (R459). -/
def nextMsg (s : State) : Option Msg :=
  match s.ring.outR with
  | m :: _ => some m
  | [] => s.ring.outQ.head?.map (·.2)

/-- That message has left: a request of it awaits its response. -/
def msgLeaves (s : State) : State :=
  let g := s.ring
  let sent := (nextMsg s).toList
  match g.outR, g.outQ with
  | _ :: rs, _ => { s with ring := { g with outR := rs, sentM := sent } }
  | [], (no, _) :: qs => { s with ring := { g with
      outQ := qs, sentM := sent, pend := g.pend.map fun p => if p.no = no then { p with sent := true } else p } }
  | [], [] => { s with ring := { g with sentM := [] } }

/-- The slot in which this device places its next message: the first one received empty, on the message ring, where neither
lane on the way is muted (R435, R453). -/
def placeAt (s : State) (ring1 : Bool) (slots : List (Option (List Byte))) : Option Nat :=
  if !s.ring.dup && msgRing s ring1 && msgPass s ring1 && (s.unit (uLane (rxLane ring1))).code == 2 &&
      (s.unit (uLane (txLane (slotOut s ring1)))).code == 2 && (nextMsg s).isSome then
    slots.findIdx? slotFree
  else none

/-- A received cycle waits on each output that it feeds, with its slots on one of them. Outside wrap a message on ring 1 is one
that the break has left there: it goes no further, and so it is lost and never met again (R453, R458; DEDUCED, log entry 69).
With no good beacon yet, the HOPS that is handed on is a free value. Bytes of a container that was
discarded go on as free values: the manual says only that the payload of such a codeword is discarded (R423; DESIGN CHOICE,
log entry 9), as a discarded emergency container goes on as none. -/
def ringForward (s : State) (x : RingRx) (p : RxParts) (muted : Bool) : State :=
  let side := if x.ring1 then s.ring.east else s.ring.west
  let pass := msgPass s x.ring1
  let slots := if muted || (!pass && !s.ring.dup) then List.replicate 55 emptySlot
    else p.slots.map (slotOn s (msgRing s x.ring1))
  let place := if muted then none else placeAt s x.ring1 p.slots
  let slots := match place, nextMsg s with
    | some i, some m => slots.set i (slotBytes m)
    | _, _ => slots
  let conts := if muted then (List.range 256).map absentContainer
    else p.conts.zipIdx.map fun c => c.1.getD ((List.range 40).map fun i => Config.freeSent s.fresh (40 * c.2 + i))
  let cyc (out : Bool) : HeldCycle :=
    { cyc := side.cyc, hops := side.hops.getD (Config.freeSent s.fresh 10240), wrap := side.wrap, slice := side.slice
      emergency := p.emergency.getD noAlarm
      slots := if out = slotOut s x.ring1 then slots else List.replicate 55 emptySlot, conts := conts }
  let taken := if muted || !pass || s.ring.dup then [] else p.slots.filterMap (slotTaken s)
  let put (m : Map (List HeldCycle)) (out : Bool) : Map (List HeldCycle) :=
    if feedEast s out = x.ring1 ∧ laneCarries s (txLane out) then
      mset dHeld m (b2n out) (mget dHeld m (b2n out) ++ [cyc out])
    else m
  let s := { s with ring := { s.ring with held := put (put s.ring.held false) true, inM := s.ring.inM ++ taken } }.tick
  match place with
  | some _ => msgLeaves s
  | none => if msgRing s x.ring1 then { s with ring := { s.ring with sentM := [] } } else s

-- RING_CYCLE_RX

/-- A beacon that this device sent on that ring itself: the ring has brought it back on the right side (R463; DEDUCED, log entry
69). -/
def ownBeacon (s : State) (ring1 : Bool) (b : Beacon) : Bool :=
  (s.lane (txLane ring1)).sentAt.any fun p => p.1 == b.cycle && timeOf p.2 == b.tTx

/-- The beacon of a received cycle (R428, R432, R433, R438, R442, R450, R463). -/
def beaconTake (s : State) (x : RingRx) (b : Option Beacon) : State :=
  let g := s.ring
  let old := if x.ring1 then g.east else g.west
  let put (r : SideRx) : Ring := { g with west := if x.ring1 then g.west else r, east := if x.ring1 then r else g.east }
  match b with
  | none => { s with ring := put { old with cyc := old.cyc + 1, slice := old.slice + 1, losRun := 0, namedRun := 0 } }
  | some b =>
    let ln := rxLane x.ring1
    let tl := txLane (!x.ring1)
    let g := put { hops := some b.hops, tvalid := b.tvalid, wrap := b.wrap, cyc := b.cycle, slice := b.slice
                   losRun := if b.losrep then satInc old.losRun 4 else 0
                   named := if b.mvalid then some b.master else none
                   namedRun := if !b.mvalid then 0 else if old.named = some b.master then satInc old.namedRun 64 else 1 }
    let s := { s with ring := { g with
      cyc := b.cycle
      cands := if b.mvalid then (b.pri, b.master, 0) :: g.cands.filter fun c => c.2.1 != b.master else g.cands
      nameAge := if b.mvalid && g.master == some b.master then 0 else g.nameAge
      release := if ringMaster s then g.release else putSlice g.release b.slice b.release } }
    let s := s.setLane ln { s.lane ln with rxAt := timeOf (rxInstant s x), rxCyc := b.cycle }
    let s := s.setPair 0x400E b.cycle
    -- the neighbour reports on this device's transmit lane of the same link (R433)
    let s := if laneCarries s tl then laneStep (satAdd s (laneAddr tl 5) b.fecrep.toNat) tl (8 * b.fecrep.toNat) else s
    if b.sender = ringSelf s ∧ !ownBeacon s x.ring1 b then ringDup s else s

/-- The CRC failures that a received cycle counts; a muted lane is read for the beacon alone of the parts that have a CRC
(R433, R435). -/
def crcFails (muted : Bool) (p : RxParts) : Nat :=
  b2n (crcBad p.beacon) + if muted then 0 else (p.slots ++ p.conts).countP crcBad

/-- RING_CYCLE_RX: a cycle received on a lane that carries one. -/
def ringRxDo (s : State) (x : RingRx) : State :=
  let ln := rxLane x.ring1
  if !(ringOn s && laneCarries s ln) then s
  else
    let p := rxParts x.codewords
    let b := p.beacon.bind beaconOf
    let muted := (s.unit (uLane ln)).code == 3
    let alarm := p.emergency == some alarmBytes
    let ref := refRing s x.ring1
    let s := if ref then ringCount s alarm else s
    let s := satAddPair (satAdd s (laneAddr ln 5) p.uncorrectable) (laneAddr ln 3) p.corrected
    let s := s.setLane ln { s.lane ln with rxBad := p.uncorrectable }
    let s := laneStep s ln (8 * p.uncorrectable + crcFails muted p)
    let s := ringAlarm (beaconTake s x b) alarm
    let s := if muted then ownTake s x.ring1 none else ringRelease (p.conts.zipIdx.foldl (containerTake x.ring1) s)
    let s := if ref then barrierRuns s else s
    ringJudge (ringForward (ringTime s x b) x p muted)

-- RING_CYCLE_TX

/-- The ring whose cycles this device counts when it sends: ring 0, or ring 1 while LANE1 carries none. -/
def refTx (s : State) (ring1 : Bool) : Bool := ring1 == !laneCarries s 1

/-- A lane of ring 0 is PASSIVE (R434). -/
def ringPassive (s : State) : Bool := 128 ≤ (s.lane 0).cnt || 128 ≤ (s.lane 1).cnt

/-- The next block of a ring stream: of the lowest tap that has one, for another device (R415, R460). -/
def nextStream (s : State) : Option (Nat × Tap × Block) :=
  s.mea.taps.findSome? fun p => match p.2 with
    | some t => if t.dest = 1 && t.arg4.setWidth 8 != ringSelf s then t.queue.head?.map fun b => (p.1, t, b) else none
    | none => none

/-- This device waits at a ring barrier (R450). -/
def ringBarrier (s : State) : Option Byte :=
  if seqRunning s && s.seq.waiting && field (s.stepWord 1) 3 0 = 5 then
    some (BitVec.ofNat 8 (field (s.stepWord 1) 11 4))
  else none

/-- A container of this device without a fragment. -/
def emptyContainer (s : State) : Container :=
  let w := if s.ring.dup then none else ringBarrier s
  { src := ringSelf s, dst := 0, stream := false, frag := 0, present := true, seq := 0, payload := [],
    barrier := w.getD 0, waiting := w.isSome }

/-- Fragments may leave on a ring now: not with DUP at 1, on a PASSIVE ring 0, or on a lane that is muted (R434, R435,
R463). -/
def fragsLeave (s : State) (ring1 : Bool) : Bool :=
  !s.ring.dup && (ring1 || !ringPassive s) && (s.unit (uLane (txLane ring1))).code == 2

/-- The container of the cycle being sent: a block that has begun goes on, and a new one begins where none is being sent.
Where no fragment may leave, the container is empty, and a block that had begun starts again, so that its four fragments
leave in four successive cycles (R460). -/
def ringOwn (s : State) (ring1 : Bool) : State :=
  if !fragsLeave s ring1 then
    { s with ring := { s.ring with
        own := some (emptyContainer s), tx := s.ring.tx.map fun (x : TxBlock) => { x with frag := 0 } } }
  else
  let s := match s.ring.tx with
    | some _ => s
    | none => match nextStream s with
      | some (i, t, b) =>
        let s := s.setTap i (some { t with queue := t.queue.drop 1 })
        { s with ring := { s.ring with tx := some { dst := t.arg4.setWidth 8, seq := b.seq.setWidth 8, frag := 0,
                                                    words := b.words, acct := t.acct, resv := b.resv } } }
      | none => s
  match s.ring.tx with
  | some x =>
    let c := { emptyContainer s with stream := true, dst := x.dst, seq := x.seq, frag := Fin.ofNat 4 x.frag,
                                     payload := (x.words.drop (16 * x.frag)).take 16 }
    let s := { s with ring := { s.ring with own := some c } }
    if 3 ≤ x.frag then freeBlock { s with ring := { s.ring with tx := none } } x.acct x.resv
    else { s with ring := { s.ring with tx := some { x with frag := x.frag + 1 } } }
  | none => { s with ring := { s.ring with own := some (emptyContainer s) } }

/-- The beacon that this device sends on a ring (R428, R436, R438): a forwarding device hands on the barrier slice that it
received; one that begins the cycle, `m`, goes through the slices in turn (DESIGN CHOICE, log entry 9). -/
def makeBeacon (s : State) (m ring1 : Bool) (feed : HeldCycle) (cyc : BitVec 32) (inst : Nat) : Beacon :=
  let pair := rxLane (!ring1)
  let best := betterOf (selfCandidate s) (bestHeard s)
  let slice : BitVec 4 := if m then cyc.setWidth 4 else feed.slice
  { master := (best.map (·.2)).getD 0, pri := (best.map (·.1)).getD 0, mvalid := best.isSome
    wrap := s.ring.loopW || s.ring.loopE || (!m && feed.wrap)
    tvalid := ringTimeOk s
    losrep := (s.unit (uLane pair)).code == 4
    hops := if m then 0 else feed.hops + 1
    sender := ringSelf s
    cycle := cyc
    tTx := timeOf (txInstant s (txLane ring1) inst)
    tRx := (s.lane pair).rxAt
    cycRx := (s.lane pair).rxCyc
    slice := slice
    release := (s.ring.release >>> (16 * slice.toNat)).setWidth 16
    fecrep := BitVec.ofNat 8 (min 255 (s.lane pair).rxBad) }

/-- The alarm's part in a cycle sent on a ring (R461, R463): this device's own alarm, or the master's relay of it, each for
256 cycles of each ring; the master writes none otherwise, and every other device forwards what it received. -/
def alarmOut (s : State) (r : Nat) (received : List Byte) : List Byte :=
  let g := s.ring
  if g.dup then received
  else if g.estopTx && mget dNat g.estopN r < 256 then alarmBytes
  else if !ringMaster s then received
  else if g.relayed = 1 && mget dNat g.relayN r < 256 then alarmBytes
  else noAlarm

/-- One cycle of the alarm has been sent on a ring. -/
def alarmCount (s : State) (r : Nat) : State :=
  let g := s.ring
  let up (on : Bool) (m : Map Nat) : Map Nat := if on then mset dNat m r (satInc (mget dNat m r) 256) else m
  { s with ring := { g with estopN := up g.estopTx g.estopN, relayN := up (g.relayed == 1) g.relayN } }

/-- This device begins a cycle: as the master; or, where no master is elected yet and it has none to forward, as a candidate,
which the other devices could not name otherwise (R438; DESIGN CHOICE, log entry 69). -/
def ringBegins (s : State) (ring1 : Bool) : Bool :=
  ringMaster s ||
    (s.ring.master.isNone && (selfCandidate s).isSome && (mget dHeld s.ring.held (b2n ring1)).isEmpty)

/-- A cycle that the master begins with nothing received: no message, and no container but its own. -/
def freshCycle : HeldCycle :=
  { cyc := 0, hops := 0, wrap := false, slice := 0, emergency := noAlarm, slots := List.replicate 55 emptySlot,
    conts := (List.range 256).map absentContainer }

/-- RING_CYCLE_TX: the master sends a cycle, with the slots and containers of a cycle that has come round; another device
sends the oldest cycle that waits (R426, R428, R429). -/
def ringTxDo (s : State) (ring1 : Bool) (inst : Fin 35840) (pad : Fin 3) : State :=
  let ln := txLane ring1
  let r := b2n ring1
  let m := ringBegins s ring1
  let waiting := mget dHeld s.ring.held r
  if !(ringOn s && laneCarries s ln) || (!m && waiting.isEmpty) then s
  else
    let f := waiting.headD freshCycle
    let ref := refTx s ring1
    let s := { s with ring := { s.ring with held := mset dHeld s.ring.held r (waiting.drop 1) } }
    let s := if ref then ringOwn { s with ring := { s.ring with txCyc := if m then s.ring.txCyc + 1 else f.cyc } } ring1 else s
    let cyc := if m then s.ring.txCyc else f.cyc
    let own := containerBytes (if s.ring.dup then emptyContainer s else s.ring.own.getD (emptyContainer s))
    let muted := (s.unit (uLane ln)).code == 3
    let x : SentCycle :=
      { beacon := makeBeacon s m ring1 f cyc inst.val, emergency := alarmOut s r f.emergency
        slots := if muted then [] else f.slots
        conts := if muted then [] else f.conts.set (ringSelf s).toNat own
        muted := muted, pad := if m then 1 else pad }
    let s := alarmCount s r
    let s := s.setLane ln { s.lane ln with sentAt := ((cyc, txInstant s ln inst.val) :: (s.lane ln).sentAt).take 16 }
    { s with ring := { s.ring with
        sent := mset dSent s.ring.sent r (some x)
        wrote := if muted then s.ring.wrote else
          let w := mget dWrote s.ring.wrote r ++ [own]
          mset dWrote s.ring.wrote r (w.drop (w.length - 1024)) } }

-- lanes and links

/-- LANE_UP (R432, R436); a transmit lane stays down while its receive lane is. A lane that went down while it was MUTED comes up
as any other does, whatever its counter says: R434 has a lane enter MUTED when the counter reaches 256, and this one has
(DESIGN CHOICE, log entry 69). -/
def laneUpDo (s : State) (n : Nat) : State :=
  let u := s.unit (uLane n)
  if !s.ring.live || u.fenced || !(u.code == 1 || u.code == 4) then s
  else ringJudge ((laneMove s n 2).setLane n { s.lane n with wasUp := true })

/-- LANE_DOWN (R432): a receive lane has had no marker lock for 4 cycles, and takes the transmit lane of its link with it. A
transmit lane goes down for the two reasons of the rule alone, which are in the state and are judged after every event. -/
def laneDownDo (s : State) (n : Nat) : State := ringJudge (if n = 0 ∨ n = 2 then laneFalls s n else s)

/-- WRAP_END at the west or the east port (R437): the link has been good for 1000 cycles. The cycle number on which the two
devices agree is the one in which the command comes. -/
def wrapEndDo (s : State) (east : Bool) : State :=
  let g := s.ring
  if east then
    if laneGood s 1 && laneGood s 2 && 1000 ≤ g.goodE then ringJudge { s with ring := { g with loopE := false } } else s
  else if laneGood s 0 && laneGood s 3 && 1000 ≤ g.goodW then ringJudge { s with ring := { g with loopW := false } } else s

/-- SER_OK, SERA_OK or both rise (R650): with both at 1 the island leaves reset, and enabled lanes train (R66, R431, R432). -/
def serRise (s : State) (ser sera : Bool) : State :=
  let s := { s with supply := { s.supply with serOk := s.supply.serOk || ser, seraOk := s.supply.seraOk || sera } }
  let s := if ser then s.condOff 0 5 else s
  let s := if sera then s.condOff 0 6 else s
  if s.ring.live || !s.supply.serOk || !s.supply.seraOk then s
  else
    let s := { s with ring := { s.ring with live := true } }
    let s := [0, 1, 2, 3].foldl (fun s n =>
      let cfg := s.reg (laneAddr n 0)
      if (s.unit (uLane n)).fenced || !bit cfg 0 then s else laneMove s n (if bit cfg 1 then 5 else 1)) s
    ringJudge s

/-- FAULT_CONDITION_CLEAR of any source: the ring's supplies are back in range with it (R66, R232). -/
def conditionClearAll (s : State) (cls src : Nat) (val : Int) : State :=
  if cls = 0 ∧ (src = 5 ∨ src = 6) ∧ s.present 0 src ∧ conditionEnds s 0 src val then serRise s (src = 5) (src = 6)
  else conditionClear s cls src val

/-- PRBS_LOCK: the checker of a lane in PRBS. -/
def prbsDo (s : State) (n : Nat) (locked : Bool) (errors : Nat) : State :=
  let u := s.unit (uLane n)
  if u.fenced || u.code != 5 then s
  else satAdd (s.setLane n { s.lane n with prbsLock := locked }) (laneAddr n 6) errors

/-- LANEn_CLR (R433): its two legal outcomes are checked at the write. -/
def laneClear (s : State) (n : Nat) : State :=
  ((s.setPair (laneAddr n 3) 0).setReg (laneAddr n 5) 0).setReg (laneAddr n 6) 0

-- master and time

/-- Every ring that brings cycles has named the device for 64 cycles in a row (R438). -/
def namedEverywhere (s : State) (id : Byte) : Bool :=
  let by_ (n : Nat) (r : SideRx) : Bool := !laneCarries s n || (r.named == some id && 64 ≤ r.namedRun)
  (laneCarries s 0 || laneCarries s 2) && by_ 0 s.ring.west && by_ 2 s.ring.east

/-- MASTER_ELECTED (R421, R438): the last beacons of every ring have named it (R439). -/
def masterDo (s : State) (id : Byte) : State :=
  if !ringOn s || !namedEverywhere s id then s
  else
    let s := if s.ring.master == some id then s else s.orReg 0x4008 4
    ringJudge { s with ring := { s.ring with master := some id, lost := false, nameAge := 0, txCyc := s.ring.cyc } }

/-- TIME_LOSS (R439): for 16 cycles no beacon has named the master, or no cycle comes at all. Device time goes on. -/
def timeLossDo (s : State) : State :=
  let quiet := 16 ≤ s.ring.nameAge || !ringOn s || !(laneCarries s 0 || laneCarries s 2)
  if s.ring.master.isNone || !quiet then s
  else ringJudge (({ s with ring := { s.ring with master := none, lost := true } }).orReg 0x4008 4)

/-- Distance of the time t from the nearest instant that lies `delay` past a whole second, in units of
2^-32 s / 390625. -/
def secondOffset (t delay : Int) : Int :=
  let sec : Int := 4294967296 * 390625
  let x := Int.emod (t - delay) sec
  if x * 2 < sec then x else x - sec

/-- PPS_IN_EDGE (R440), `inst` after the last timebase cycle: device time is steered, by a slew, so that the edge falls at a
whole second plus RING_PPSDLY. -/
def ppsInDo (s : State) (inst : Nat) : State :=
  if ringMaster s && bit (s.reg 0x4000) 3 then
    let delay := Int.tdiv (sgn (s.reg 0x4005) * 16777216) 10
    { s with clock := { s.clock with slew := -(secondOffset (clockUnits s + inst) delay) } }.condOff 9 2
  else s

/-- PPS_LOSS (R440). -/
def ppsLossDo (s : State) : State := if ringMaster s && bit (s.reg 0x4000) 3 then s.condOn 9 2 0 else s

/-- PPS_OUT (R449). -/
def ppsOutDo (s : State) (rise : Bool) : State :=
  if rise then
    if bit (s.reg 0x4000) 4 && ringTimeOk s then { s with ring := { s.ring with pps := true } } else s
  else { s with ring := { s.ring with pps := false } }

/-- RING_BARRIER_CLEAR (R450): no device has waited at b for 1000 cycles. -/
def ringBarClear (s : State) (b : Byte) : State :=
  if ringMaster s && ringWaiting s b == 0 && 1000 ≤ mget dNat s.ring.barRun b.toNat then
    { s with ring := { s.ring with release := s.ring.release &&& ~~~(1#256 <<< b.toNat) } }
  else s

/-- ESTOP_TX_END (R461): an alarm that has been written for 256 cycles on each ring that carries any ends. -/
def estopEnd (s : State) : State :=
  let g := s.ring
  let over_ (m : Map Nat) : Bool := (256 ≤ mget dNat m 0 || !laneCarries s 1) && (256 ≤ mget dNat m 1 || !laneCarries s 3)
  { s with ring := { g with
      estopTx := g.estopTx && !over_ g.estopN, relayed := if g.relayed = 1 && over_ g.relayN then 2 else g.relayed } }

-- the requester's side of remote access

/-- The ring can carry a request to a device (R414, R454). -/
def ringReach (s : State) (dst : Byte) : Bool := ringUpNow s && ringPresent s dst.toNat

/-- A request waits for its response, and for a slot. -/
def ringSend (s : State) (r : Req) (m : Msg) : State :=
  { s with ring := { s.ring with
      pend := s.ring.pend ++ [{ r := r, kind := m.kind, dst := m.dst, tag := m.tag, no := s.ring.reqNo }]
      outQ := s.ring.outQ ++ [(s.ring.reqNo, m)]
      reqNo := s.ring.reqNo + 1 } }

/-- The request is sent, once its checks pass: a count or code in range, a target that is not this device and can be
reached, and at most 8 requests waiting (R454, R459). -/
def ringRequest (s : State) (r : Req) (early : List (Bool × Word)) (m : Msg) : State × Word × List Word :=
  let c := firstFail (early ++ [(m.dst == ringSelf s, eRange), (!ringReach s m.dst, eUnreach),
    (8 ≤ s.ring.pend.length, eExhausted)])
  if c ≠ eOk then (s, c, []) else (ringSend s r m, ePending, [])

/-- The message of an operation with target and TAG in ARG0 (R451, R452). -/
def ringMsg (s : State) (a : Nat → Word) (kind : Byte) (count : Nat) (data : List Word) : Msg :=
  { kind := kind, dst := (a 0).setWidth 8, src := ringSelf s, tag := (a 0 >>> 8).setWidth 8,
    count := BitVec.ofNat 8 count, code := a 1, data := data }

/-- RING_RD (R451). -/
def opRingRd (s : State) (r : Req) (a : Nat → Word) : State × Word × List Word :=
  let n := (a 2).toNat
  ringRequest s r [(!within n 1 4, eRange)] (ringMsg s a 1 n [])

/-- RING_WR (R451). -/
def opRingWr (s : State) (r : Req) (a : Nat → Word) : State × Word × List Word :=
  let n := (a 2).toNat
  ringRequest s r [(!within n 1 5, eRange)] (ringMsg s a 2 n (([a 3, a 4, a 5, a 6, a 7]).take n))

/-- RING_CMD (R451). -/
def opRingCmd (s : State) (r : Req) (a : Nat → Word) : State × Word × List Word :=
  ringRequest s r [(field (a 1) 15 8 = 6, eRange)] (ringMsg s a 3 6 [a 2, a 3, a 4, a 5, a 6, a 7])

/-- RING_TSET (R441): it completes at the next whole second. While the ring is down it is E_UNREACHABLE, as every ring
operation is (12_device_ring.md, "Corner cases"). A second one is E_BUSY while one waits (DESIGN CHOICE, log entry 67). -/
def opRingTset (s : State) (r : Req) (a : Nat → Word) : State × Word × List Word :=
  let c := firstFail [(!ringUpNow s, eUnreach), (s.ring.tset.isSome, eBusy), (!ringMaster s, eState)]
  if c ≠ eOk then (s, c, [])
  else ({ s with ring := { s.ring with tset := some ((a 1) ++ (a 0), some r) } }, ePending, [])

/-- RING_TSET_APPLY (R441): the seconds field takes its value; that is a step of device time. -/
def tsetApply (s : State) : State :=
  match s.ring.tset with
  | none => s
  | some (v, r) =>
    let s := { s with ring := { s.ring with tset := none } }
    let finish (s : State) (c : Word) : State := match r with
      | some r => finishCmd s r c []
      | none => s
    if !ringMaster s then finish s eState
    else
      let t : BitVec 64 := v ++ (s.now.setWidth 32)
      let s := logPut s 0x09 false (timeWords s.now ++ timeWords t)
      finish (forgetMarkers { s with clock := { s.clock with t := t } }) eOk

/-- The k-th of a list is taken out. -/
def dropAt {α : Type} (l : List α) (k : Nat) : List α := l.take k ++ l.drop (k + 1)

/-- RTMO (R457): request k has no response within RING_TMO. -/
def rtmoDo (s : State) (k : Nat) : State :=
  match s.ring.pend[k]? with
  | none => s
  | some p =>
    let g := s.ring
    let s := { s with ring := { g with
      pend := dropAt g.pend k
      outQ := g.outQ.filter fun m => m.1 != p.no } }
    (finishCmd s p.r eTimeout []).orReg 0x4008 0x40

/-- The results that a response carries: the words read, the count applied, or the remote results (R451). -/
def responseWords (m : Msg) : List Word :=
  if m.kind = 0x0A then [m.count.setWidth 16]
  else if m.kind = 0x09 then m.data.take (min 4 m.count.toNat)
  else m.data.take 4

/-- RING_RESPONSE_RX (R452, R453, R457): the oldest message taken, where it is a response. One without a request that has been
sent and waits for it is discarded. -/
def ringResponseDo (s : State) : State :=
  match s.ring.inM with
  | [] => s
  | m :: ms =>
    if isRequest m then s
    else
      let s := { s with ring := { s.ring with inM := ms } }
      let hit := fun (p : PendReq) => p.sent && p.dst == m.src && p.tag == m.tag && p.kind + 8 == m.kind
      match s.ring.pend.findIdx? hit with
      | none => s
      | some k =>
        match s.ring.pend[k]? with
        | none => s
        | some p => finishCmd { s with ring := { s.ring with pend := dropAt s.ring.pend k } } p.r m.code (responseWords m)

-- the commands of this chapter that need no access of this device's registers

/-- RING_CYCLE_TX (R426). -/
def execRingCycleTx (ring1 : Bool) (inst : Fin 35840) (pad : Fin 3) (s : State) : Host.Outcome State Fault Refusal :=
  done (ringTxDo s ring1 inst pad)

/-- RING_CYCLE_RX (R428). -/
def execRingCycleRx (x : RingRx) (s : State) : Host.Outcome State Fault Refusal := done (ringRxDo s x)

/-- RING_RESPONSE_RX (R453). -/
def execRingResponseRx (s : State) : Host.Outcome State Fault Refusal := done (ringResponseDo s)

/-- ESTOP_TX_END (R461). -/
def execEstopTxEnd (s : State) : Host.Outcome State Fault Refusal := done (estopEnd s)

/-- LANE_UP (R432). -/
def execLaneUp (n : Fin 4) (s : State) : Host.Outcome State Fault Refusal := done (laneUpDo s n.val)

/-- LANE_DOWN (R432). -/
def execLaneDown (n : Fin 4) (s : State) : Host.Outcome State Fault Refusal := done (laneDownDo s n.val)

/-- WRAP_END (R437). -/
def execWrapEnd (east : Bool) (s : State) : Host.Outcome State Fault Refusal := done (wrapEndDo s east)

/-- MASTER_ELECTED (R438). -/
def execMasterElected (id : Byte) (s : State) : Host.Outcome State Fault Refusal := done (masterDo s id)

/-- TIME_LOSS (R439). -/
def execTimeLoss (s : State) : Host.Outcome State Fault Refusal := done (timeLossDo s)

/-- PPS_IN_EDGE (R440). -/
def execPpsInEdge (inst : Nat) (s : State) : Host.Outcome State Fault Refusal := done (ppsInDo s inst)

/-- PPS_LOSS (R440). -/
def execPpsLoss (s : State) : Host.Outcome State Fault Refusal := done (ppsLossDo s)

/-- PPS_OUT (R449). -/
def execPpsOut (rise : Bool) (s : State) : Host.Outcome State Fault Refusal := done (ppsOutDo s rise)

/-- RING_BARRIER_CLEAR (R450). -/
def execRingBarrierClear (b : Byte) (s : State) : Host.Outcome State Fault Refusal := done (ringBarClear s b)

/-- RING_TSET_APPLY (R441). -/
def execRingTsetApply (s : State) : Host.Outcome State Fault Refusal := done (tsetApply s)

/-- RTMO (R457). -/
def execRtmo (k : Nat) (s : State) : Host.Outcome State Fault Refusal := done (rtmoDo s k)

/-- FAULT_CONDITION_CLEAR (R247). -/
def execFaultConditionClear (cls : Fin 10) (src : Byte) (val : Int) (s : State) : Host.Outcome State Fault Refusal :=
  done (conditionClearAll s cls.val src.toNat val)

/-- SER_OK_RISE (R66, R650): each supply that is within its window is good. -/
def execSerOkRise (serMv seraMv : Nat) (s : State) : Host.Outcome State Fault Refusal :=
  done (serRise s (supplyGood 5 serMv) (supplyGood 6 seraMv))

/-- PRBS_LOCK (R431). -/
def execPrbsLock (n : Fin 4) (locked : Bool) (errors : Nat) (s : State) : Host.Outcome State Fault Refusal :=
  done (prbsDo s n.val locked errors)

end Sys2Proof.Machine
end

