-- ==== Sys2Proof/Machine/Floor.lean ====
section
/-! DEFINITION. The floor bus port: beacons, slots, cycles, counters, stop frames, barriers and the requester's side of
remote access (13_floor_bus.md). -/

namespace Sys2Proof.Machine

open Sys2Proof

-- the port

/-- The port has slot timing and is ACTIVE or MUTED. -/
def floorTimed (s : State) : Bool :=
  let c := (s.unit uFloor).code
  s.floor.timed && (c == 2 || c == 3)

/-- The port may send beacons and device frames (R486, R493). -/
def floorSends (s : State) : Bool :=
  floorTimed s && (s.unit uFloor).code == 2 && !(s.unit uFloor).fenced && !s.floor.dup

/-- The port follows the beacon. -/
def floorFollows (s : State) : Bool := !s.floor.master && !floorRing s

/-- This device as a candidate for beacon master (R476). -/
def floorCandidate (s : State) : Option (BitVec 2 × Byte) :=
  match field (s.reg 0x4800) 2 1 with
  | 0 => some (1, devId s)
  | 1 => some (2, devId s)
  | _ => none

def floorTx (s : State) (n : Nat) : State := { s with floor := { s.floor with tx := min 511 (s.floor.tx + n) } }
def floorRx (s : State) (n : Nat) : State := { s with floor := { s.floor with rx := min 511 (s.floor.rx + n) } }

/-- A timing error in a register, in units of 12.5 ns; a free value where it does not fit. -/
def putErr (s : State) (a : Nat) (e : Int) : State :=
  if -32768 ≤ e ∧ e ≤ 32767 then s.setReg a (BitVec.ofInt 16 e) else (s.setReg a (Config.freeFloorErr s.fresh)).tick

/-- The beacon master in force (FLR_MASTER, FLR_EVT.MASTERCHG). -/
def floorMasterIs (s : State) (id : Byte) : State :=
  let s := if s.floor.masterId == some id then s else s.orReg 0x4812 1
  { s with floor := { s.floor with masterId := some id, bAge := 0, sawBeacon := true } }

-- beacons

/-- The beacon that this device sends (R472). -/
def floorBeacon (s : State) : FloorBeacon :=
  { src := devId s, pri := ((floorCandidate s).map (·.1)).getD 0, ringt := floorRing s, cycle := floorCycle s,
    release := s.floor.release }

/-- A beacon leaves. -/
def floorSendsBeacon (s : State) : State :=
  let b := floorBeacon s
  { s with floor := { s.floor with sentB := some b, out := some (.frame (floorBeaconBytes b)) } }

/-- A frame discarded under R473. -/
def frameBad (s : State) : State :=
  floorJudge (floorRx (satAdd { s with floor := { s.floor with discarded := true } } 0x480D 1) 8)

/-- The rate is trimmed to the measured beacon interval (R477): one unit of 12.5 ns in a cycle is 1.25 ppm. The rounding is
free. -/
def floorTrim (s : State) (err : Int) : State :=
  let g := s.floor
  let d := roundFree (Config.freeRoundUp s.fresh) err (g.missRun + 1)
  { s with floor := { g with interval := ((g.interval : Int) + d).toNat } }.tick

/-- A valid beacon ends holdover, and its mute where the transmit counter is below 96 (R482). -/
def endHoldover (s : State) : State :=
  { s with floor := { s.floor with hold := 0, holdMute := s.floor.holdMute && 96 ≤ s.floor.tx } }

/-- The beacon of this device leaves, and it reads back intact or not (R479, R483): intact, it is a valid beacon to its sender too
(R482). -/
def beaconLeaves (s : State) (intact : Bool) : State :=
  let s := floorSendsBeacon s
  if intact then floorJudge (endHoldover (floorMasterIs s (devId s)))
  else floorJudge (floorTx { s with floor := { s.floor with ownBeaconBad := true } } 8)

/-- BEACON_TX (R477, R479): the master's beacon. -/
def beaconTxDo (s : State) (intact : Bool) : State :=
  if !(s.floor.master && floorSends s) then s else beaconLeaves s intact

/-- BEACON_RX (R473, R477, R480 to R482): a frame in the beacon slot, which arrives `err` units of 12.5 ns after the prediction.
A master that hears another's beacon steps and trims too, but it follows none, so it records no error of its own. -/
def beaconRxDo (s : State) (cs : List FloorChar) (err : Int) : State :=
  let c := (s.unit uFloor).code
  match floorBeaconOf cs with
  | none => if c = 1 || floorTimed s then frameBad s else s
  | some b =>
  if c = 1 then
    -- a seeking port adopts the timing of the first beacon
    let s := floorMasterIs s b.src
    let s := { s with floor := { s.floor with
      timed := true, cyc := b.cycle, hold := 0, missRun := 0, heard := some (b.pri, b.src), release := b.release } }
    floorJudge (s.setCode uFloor 2)
  else if !floorTimed s then s
  else
    let follows := floorFollows s
    let steps := !floorRing s
    let s := endHoldover (floorMasterIs s b.src)
    let s := { s with floor := { s.floor with
      heard := some (b.pri, b.src)
      release := if s.floor.master then s.floor.release else b.release
      cyc := if steps then b.cycle else s.floor.cyc } }
    let s := if follows then putErr s 0x4807 err else s
    let s := if steps then floorTrim s err else s
    let s := { s with floor := { s.floor with missRun := 0 } }
    let s := if follows && 80 < err.natAbs then
        (floorTx { s with floor := { s.floor with selfEdge := true } } 8).orReg 0x4812 0x10
      else s
    floorJudge s

/-- SEEK_TIMEOUT (R480): a seeking candidate sends a beacon, which starts cycle 0 of its timing. -/
def seekDo (s : State) (intact : Bool) : State :=
  let u := s.unit uFloor
  if u.code != 1 || u.fenced || s.floor.mute || s.floor.dup || (floorCandidate s).isNone then s
  else
    let s := { s with floor := { s.floor with timed := true, master := true, cyc := 0, hold := 0, missRun := 0 } }
    floorJudge (beaconLeaves (s.setCode uFloor 2) intact)

-- device frames

/-- This device waits at a floor barrier (R495). -/
def floorBarrier (s : State) : Option Byte :=
  if seqRunning s && s.seq.waiting && field (s.stepWord 1) 3 0 = 6 then
    some (BitVec.ofNat 8 (field (s.stepWord 1) 11 4))
  else none

/-- The management section of the next frame: a response before any request, and no request of a PASSIVE port (R485,
R499). -/
def floorNextMsg (s : State) : Option Msg :=
  match s.floor.outR with
  | m :: _ => some m
  | [] => if floorPassive s then none else s.floor.outQ.head?.map (·.2)

/-- The frame that this device sends in its slot (R472, R485, R492). -/
def floorFrame (s : State) : FloorFrame :=
  let w := floorBarrier s
  let rep := if floorPassive s then none else s.floor.rep
  { src := devId s
    claim := s.floor.claiming && !floorPassive s
    waiting := w.isSome
    alarm := bit (s.reg 0x4810) 0
    tvalid := s.floor.hold == 0
    bar := w.getD 0
    pri := ((floorCandidate s).map (·.1)).getD 0
    repk := (rep.map (·.2)).getD 0
    rep := (rep.map (·.1)).getD 0
    mgmt := floorNextMsg s }

/-- A frame discarded under R474, to be reported where its slot is the lowest (R475). -/
def frameOff (s : State) (slot : Byte) (err : Int) : State :=
  let k : BitVec 2 := if err < 0 then 1 else 2
  let d := match s.floor.disc with
    | some (x, y) => if slot.toNat < x.toNat then some (slot, k) else some (x, y)
    | none => some (slot, k)
  let s := { s with floor := { s.floor with discarded := true, disc := d } }
  floorJudge (floorRx (putErr ((satAdd s 0x480D 1).setReg 0x480A (slot.setWidth 16)) 0x480B err) 1)

/-- The fields of an accepted frame (R475, R478, R483, R491, R492, R495). -/
def frameFields (s : State) (f : FloorFrame) : State :=
  let k := f.src.toNat
  let g := s.floor
  let rose := f.alarm && !(floorPresent s k && g.alarm.getLsbD k)
  let mine := f.repk != 0 && f.rep == devId s
  let cand := if f.claim && f.pri != 0 then some (f.pri, f.src) else none
  let beaten := g.master && cand.isSome && betterOf cand (floorCandidate s) == cand
  let m : BitVec 256 := 1#256 <<< k
  let s := { s with floor := { g with
    age := mset dAge g.age k 0
    alarm := if f.alarm then g.alarm ||| m else g.alarm &&& ~~~m
    waits := mset dWait g.waits k (if f.waiting then some f.bar else none)
    claim := betterOf cand g.claim
    yield := g.yield || beaten
    reported := g.reported || mine } }
  let s := if rose then s.orReg 0x4812 2 else s
  let s := if mine then s.orReg 0x4812 0x20 else s
  if mine && !g.reported then floorJudge (floorTx s 8) else s

/-- SLOT_TX (R469, R483): the frame of this device's slot, and whether it reads back intact. The port receives what it sends
(R467): an intact own frame is one accepted from its own slot, so this device is present to itself (R491, R495; DEDUCED, log
entry 9). -/
def slotTxDo (s : State) (intact : Bool) : State :=
  if !floorSends s then s
  else
    let f := floorFrame s
    let g := s.floor
    let sent := fun (p : PendReq) => if (g.outQ.head?.map (·.1)) == some p.no then { p with sent := true } else p
    let ask := g.outR.isEmpty && f.mgmt.isSome
    let s := { s with floor := { g with
      sentF := some f
      out := some (.frame (floorFrameBytes f))
      rep := none
      outR := g.outR.drop 1
      outQ := if ask then g.outQ.drop 1 else g.outQ
      pend := if ask then g.pend.map sent else g.pend
      claimed := g.claimed || f.claim
      claim := if f.claim then betterOf (floorCandidate s) g.claim else g.claim
      slotIntact := g.slotIntact || intact
      ownBad := g.ownBad || !intact } }
    if intact then frameFields s { f with claim := false } else floorJudge (floorTx s 8)

/-- FRAME_RX without its message: whether the frame is accepted (R473, R474), and the state after. -/
def frameTake (s : State) (slot : Byte) (err : Int) (cs : List FloorChar) : Bool × State :=
  if !floorTimed s then (false, s)
  else match floorFrameOf cs with
  | none => (false, frameBad s)
  | some f =>
    if f.src != slot then (false, frameBad s)
    else
      let s := if slot = devId s then { s with floor := { s.floor with slotIntact := true } } else s
      if 320 < err.natAbs then (false, frameOff s slot err)
      else
        let s := if 80 < err.natAbs then
            putErr ((satAdd s 0x480C 1).setReg 0x4808 (slot.setWidth 16)) 0x4809 err
          else s
        (true, frameFields s f)

-- stop frames

/-- STOP_FRAME_TX (R488, R489): the stop frame that was asked for leaves, even from a muted or fenced port. -/
def stopFrameDo (s : State) : State :=
  if floorTimed s && s.floor.stopReq then { s with floor := { s.floor with stopReq := false, out := some .stop } } else s

/-- STOP_RECOGNISED (R490): FLR_RXD at the start of a stop window, and a run of `low` samples of 12.5 ns from sample `start` of
it: at least 5.0 µs, and over before the window of 20 µs is. -/
def stopSeen (s : State) (highBefore : Bool) (start low : Nat) : State :=
  if !(floorTimed s && highBefore && 400 ≤ low && start + low < 1600) then s
  else
    let s := s.orReg 0x4812 8
    if bit (s.reg 0x1601) 3 then coldStopLogged s causeFloor else s

-- the end of a cycle

/-- Counters of the cycle (R483). -/
def cycleCounters (s : State) : State :=
  let g := s.floor
  let good := g.sawBeacon || floorRing s
  { s with floor := { g with
    rx := if good && !g.discarded then g.rx - 1 else g.rx
    tx := if good && !g.selfEdge && !g.reported && !g.ownBad && !g.ownBeaconBad then g.tx - 1 else g.tx } }

/-- Cycles without a beacon, and holdover (R482). -/
def cycleHoldover (s : State) : State :=
  let g := s.floor
  if g.sawBeacon then { s with floor := { g with missRun := 0, hold := 0 } }
  else
    let hold := if floorRing s then 0 else if g.master then g.hold else satInc g.hold 15
    let mutes := floorFollows s && 8 ≤ hold && !g.holdMute
    let s := { s with floor := { g with
      missRun := g.missRun + 1, bAge := satInc g.bAge 8, hold := hold, holdMute := g.holdMute || mutes } }
    if mutes then s.occur 5 4 0 else s

/-- Own frames that were not read back: the beacon master stops after two, and DUP_ID rises after four and ends after
sixteen quiet cycles (R479, R493). -/
def cycleOwn (s : State) : State :=
  let g := s.floor
  let bb := if g.ownBeaconBad then g.badBeacons + 1 else 0
  let bf := if g.ownBad then g.badFrames + 1 else 0
  let stops := g.master && 2 ≤ bb
  let rises := !g.dup && 4 ≤ bf
  let quiet := if g.dup && !g.slotIntact then g.quietSlot + 1 else 0
  let ends := g.dup && 16 ≤ quiet
  let s := { s with floor := { g with
    badBeacons := if stops then 0 else bb
    badFrames := if rises then 0 else bf
    master := g.master && !stops
    claiming := g.claiming || (stops && (floorCandidate s).isSome)
    dup := (g.dup || rises) && !ends
    quietSlot := if ends then 0 else quiet } }
  if rises then (s.orReg 0x4812 0x80).condOn 5 5 0
  else if ends then s.condOff 5 5
  else s

/-- Claims (R478): with no beacon the best claimer sends beacons; a claimer that a worse master yields to does so one cycle
later; a master that yields stops after one more cycle. -/
def cycleClaims (s : State) : State :=
  let g := s.floor
  let me := floorCandidate s
  let best := g.claimed && me.isSome && g.claim == me
  let wins := (best && !g.sawBeacon) || g.takeOver
  let take := best && g.sawBeacon && !g.takeOver && betterOf me g.heard == me
  let starts := me.isSome && !g.master && !wins && 2 ≤ g.missRun && !(g.claimed && g.claim.isSome)
  { s with floor := { g with
    master := (g.master && !g.yieldNow) || wins
    claiming := !wins && !take && !g.sawBeacon && (starts || (g.claiming && !g.claimed))
    takeOver := take
    yield := false
    yieldNow := g.yield && !g.yieldNow } }

/-- Presence after a cycle, with FLR_EVT.LOSS for a watched device that goes (R491, R492). -/
def cyclePresence (s : State) : State :=
  let g := s.floor
  let here := (List.range 256).filter fun k => floorPresent s k
  let age := here.foldl (fun m k => mset dAge m k (mget dAge g.age k + 1)) g.age
  let gone := here.filter fun k => 15 ≤ mget dAge g.age k
  let alarm := gone.foldl (fun (m : BitVec 256) k => m &&& ~~~(1#256 <<< k)) g.alarm
  let waits := gone.foldl (fun m k => mset dWait m k none) g.waits
  floorLoss { s with floor := { g with age := age, alarm := alarm, waits := waits } } gone

/-- Present devices that wait at floor barrier b. -/
def floorWaiting (s : State) (b : Byte) : Nat :=
  (s.floor.waits.filter fun p => p.2 == some b && floorPresent s p.1).length

/-- The beacon master releases each barrier that enough present devices wait at (R495). -/
def floorRelease (s : State) : State :=
  if !s.floor.master then s
  else
    let bs := s.floor.waits.filterMap fun p => if floorPresent s p.1 then p.2 else none
    let all := ((List.range 256).filter fun k => floorPresent s k).length
    let rel := bs.foldl (fun (m : BitVec 256) b =>
      let n := (s.reg (0x4900 + b.toNat)).toNat
      let w := floorWaiting s b
      if (n = 0 ∧ w = all) ∨ (0 < n ∧ n ≤ w) then m ||| (1#256 <<< b.toNat) else m) s.floor.release
    { s with floor := { s.floor with release := rel } }

/-- The cycles in a row that each released barrier has had no device waiting at it (R495). -/
def floorRuns (s : State) : State :=
  let run := (List.range 256).foldl (fun m b =>
    let n := if s.floor.release.getLsbD b && floorWaiting s (BitVec.ofNat 8 b) == 0 then satInc (mget dNat m b) 100 else 0
    mset dNat m b n) s.floor.barRun
  { s with floor := { s.floor with barRun := run } }

/-- FLOOR_CYCLE_END: what the cycle brought is judged, and the next begins. -/
def cycleEnd (s : State) : State :=
  if !floorTimed s then s
  else
    let s := cyclePresence (cycleClaims (cycleOwn (cycleHoldover (cycleCounters s))))
    let s := floorRuns (floorRelease s)
    let g := s.floor
    floorJudge <| floorSync { s with floor := { g with
      cyc := g.cyc + 1
      sawBeacon := false, discarded := false, selfEdge := false, reported := false, ownBad := false
      ownBeaconBad := false, slotIntact := false, claimed := false, heard := none
      rep := g.disc, disc := none, claim := none } }

-- the stuck bus, and barriers

/-- STUCK (R257, R494). -/
def stuckDo (s : State) : State :=
  let c := (s.unit uFloor).code
  if c = 1 ∨ c = 2 ∨ c = 3 then ((floorUntime s).setCode uFloor 4).condOn 5 0 0 else s

/-- STUCK_END (R494). -/
def stuckEndDo (s : State) : State :=
  if (s.unit uFloor).code = 4 then (s.setCode uFloor 1).condOff 5 0 else s

/-- FLOOR_BARRIER_CLEAR (R495). -/
def floorBarClear (s : State) (b : Byte) : State :=
  if s.floor.master && floorWaiting s b == 0 && 100 ≤ mget dNat s.floor.barRun b.toNat then
    { s with floor := { s.floor with release := s.floor.release &&& ~~~(1#256 <<< b.toNat) } }
  else s

-- the requester's side of remote access

/-- The checks of R498 and R500 after the ranges of the operation's own fields; then the request waits for a slot. -/
def floorRequest (s : State) (r : Req) (early : List (Bool × Word)) (m : Msg) : State × Word × List Word :=
  let u := s.unit uFloor
  let c := firstFail (early ++ [(m.dst == devId s, eRange),
    (u.code != 2 || floorPassive s || !floorPresent s m.dst.toNat, eUnreach), (u.fenced, eFenced),
    (4 ≤ s.floor.pend.length, eExhausted)])
  if c ≠ eOk then (s, c, [])
  else ({ s with floor := { s.floor with
      pend := s.floor.pend ++ [{ r := r, kind := m.kind, dst := m.dst, tag := m.tag, no := s.floor.reqNo }]
      outQ := s.floor.outQ ++ [(s.floor.reqNo, m)]
      reqNo := s.floor.reqNo + 1 } }, ePending, [])

/-- FLR_RD (R497). -/
def opFlrRd (s : State) (r : Req) (a : Nat → Word) : State × Word × List Word :=
  let n := (a 2).toNat
  floorRequest s r [(!within n 1 4, eRange)] (ringMsg s a 1 n [])

/-- FLR_WR (R497). -/
def opFlrWr (s : State) (r : Req) (a : Nat → Word) : State × Word × List Word :=
  let n := (a 2).toNat
  floorRequest s r [(!within n 1 5, eRange)] (ringMsg s a 2 n (([a 3, a 4, a 5, a 6, a 7]).take n))

/-- FLR_CMD (R497). -/
def opFlrCmd (s : State) (r : Req) (a : Nat → Word) : State × Word × List Word :=
  floorRequest s r [(field (a 1) 15 8 = 7, eRange)] (ringMsg s a 3 6 [a 2, a 3, a 4, a 5, a 6, a 7])

/-- FLR_RTMO (R500). -/
def flrRtmoDo (s : State) (k : Nat) : State :=
  match s.floor.pend[k]? with
  | none => s
  | some p =>
    let g := s.floor
    let s := { s with floor := { g with
      pend := dropAt g.pend k
      outQ := g.outQ.filter fun m => m.1 != p.no } }
    (finishCmd s p.r eTimeout []).orReg 0x4812 0x40

/-- A response received over the floor bus (R500). -/
def floorResponse (s : State) (src : Byte) (m : Msg) : State :=
  let hit := fun (p : PendReq) => p.sent && p.dst == src && p.tag == m.tag && p.kind + 8 == m.kind
  match s.floor.pend.findIdx? hit with
  | none => s
  | some k =>
    match s.floor.pend[k]? with
    | none => s
    | some p => finishCmd { s with floor := { s.floor with pend := dropAt s.floor.pend k } } p.r m.code (responseWords m)

-- the commands of this chapter that need no access of this device's registers

/-- BEACON_TX (R477). -/
def execBeaconTx (intact : Bool) (s : State) : Host.Outcome State Fault Refusal := done (beaconTxDo s intact)

/-- BEACON_RX (R477). -/
def execBeaconRx (b : List FloorChar) (err : Int) (s : State) : Host.Outcome State Fault Refusal :=
  done (beaconRxDo s b err)

/-- SLOT_TX (R469). -/
def execSlotTx (intact : Bool) (s : State) : Host.Outcome State Fault Refusal := done (slotTxDo s intact)

/-- STOP_FRAME_TX (R488). -/
def execStopFrameTx (s : State) : Host.Outcome State Fault Refusal := done (stopFrameDo s)

/-- STOP_RECOGNISED (R490). -/
def execStopRecognised (highBefore : Bool) (start low : Nat) (s : State) : Host.Outcome State Fault Refusal :=
  done (stopSeen s highBefore start low)

/-- FLOOR_CYCLE_END (R483). -/
def execFloorCycleEnd (s : State) : Host.Outcome State Fault Refusal := done (cycleEnd s)

/-- SEEK_TIMEOUT (R480). -/
def execSeekTimeout (intact : Bool) (s : State) : Host.Outcome State Fault Refusal := done (seekDo s intact)

/-- STUCK (R257). -/
def execStuck (s : State) : Host.Outcome State Fault Refusal := done (stuckDo s)

/-- STUCK_END (R494). -/
def execStuckEnd (s : State) : Host.Outcome State Fault Refusal := done (stuckEndDo s)

/-- FLOOR_BARRIER_CLEAR (R495). -/
def execFloorBarrierClear (b : Byte) (s : State) : Host.Outcome State Fault Refusal := done (floorBarClear s b)

/-- FLR_RTMO (R500). -/
def execFlrRtmo (k : Nat) (s : State) : Host.Outcome State Fault Refusal := done (flrRtmoDo s k)

end Sys2Proof.Machine
end

