-- ==== Sys2Proof/Machine/Rails.lean ====
section
/-! DEFINITION. Events of switching rails, LDOs and supervisors (04_rails.md): references and tracking laws, starts, ramps,
hushes, detections and their last-fault records. -/

namespace Sys2Proof.Machine

open Sys2Proof

def swAddr (n o : Nat) : Nat := 0x1000 + 0x40 * n + o

/-- The code is a switching state: STARTING, SETTLING, REGULATING, SLEWING or STOPPING. -/
def switching (c : BitVec 4) : Bool := 2 ≤ c.toNat && c.toNat ≤ 6

-- references (R116, R117, R137 to R139)

/-- DIVSCALE of rail n. -/
def divOf (s : State) (n : Nat) : Nat := field (effReg s n 1) 2 1

/-- The output voltage of rail n at a sense voltage code: sense × 2^DIVSCALE (R117). -/
def outputOf (s : State) (n code : Nat) : Nat := code * 2 ^ divOf s n

/-- What a reference covers in switching island cycles of 5 ns at a slew rate in mV/ms, in whole codes of 100 µV. -/
def slewed (rate cycles : Nat) : Nat := rate * cycles / 20000

/-- The ratiometric reference of rail n (R137): RATIO / 16384 of the source's output at its sense code, as a code at the
rail's own sense pins, rounded down, and no higher than VSET. -/
def ratioCode (s : State) (n src : Nat) : Nat :=
  min (effReg s n 2).toNat
    ((effReg s n 0xD).toNat * outputOf s (trackSrc s n) src / (16384 * 2 ^ divOf s n))

/-- What a coincident reference covers in `cycles` (R138): the source's SLEW × 2^(source DIVSCALE − rail DIVSCALE). -/
def coincident (s : State) (n cycles : Nat) : Nat :=
  (effReg s (trackSrc s n) 3).toNat * 2 ^ divOf s (trackSrc s n) * cycles / (20000 * 2 ^ divOf s n)

/-- The reference in STARTING: 0 V up to the end of the start check (R148), then the tracking law of a start that follows
its source (R137, R138), or the rail's own SLEW. -/
def riseCode (s : State) (n : Nat) (m : Meas) : Nat :=
  let v := (effReg s n 2).toNat
  if !(s.rail n).checked then 0
  else if (s.rail n).tracking && trackMode s n == 1 then ratioCode s n m.srcSense.toNat
  else if (s.rail n).tracking && trackMode s n == 2 then min v (coincident s n m.ramp)
  else min v (slewed (effReg s n 3).toNat m.ramp)

/-- The reference in STOPPING (R122, R139): it falls from the set point before the switch-off. -/
def fallCode (s : State) (n : Nat) (m : Meas) : Nat :=
  let v := (s.rail n).oldV.toNat
  let rate := (effReg s n 3).toNat
  match trackMode s n with
  | 1 => min (v - slewed rate m.ramp) (ratioCode s n m.srcSense.toNat)
  | 2 => v - (coincident s n m.srcRamp + slewed rate (m.ramp - m.srcRamp))
  | _ => v - slewed rate m.ramp

/-- The reference in SLEWING, from the old set point to the new one. -/
def slewCode (s : State) (n : Nat) (m : Meas) : Nat :=
  let old := (s.rail n).oldV.toNat
  let new := (effReg s n 2).toNat
  let d := slewed (effReg s n 3).toNat m.ramp
  if old ≤ new then min new (old + d) else max new (old - d)

/-- The reference code of rail n at a detection (R119, R153 word 2). Whole codes are taken downwards on every ramp, as
R137 says of the ratiometric one (log entry 25). -/
def refCode (s : State) (n : Nat) (m : Meas) : Nat :=
  match (s.unit n).code.toNat with
  | 2 => riseCode s n m
  | 5 => slewCode s n m
  | 6 => fallCode s n m
  | 3 | 4 => (effReg s n 2).toNat
  | _ => 0

/-- The reference of the OV level (R150): the higher set point in SLEWING, and never below 0.3000 V. -/
def ovRef (s : State) (n : Nat) (m : Meas) : Nat :=
  let r := if (s.unit n).code = 5 then max (s.rail n).oldV.toNat (effReg s n 2).toNat else refCode s n m
  max r 3000

/-- The reference of the UV level (R150): the lower set point in SLEWING. -/
def uvRef (s : State) (n : Nat) (m : Meas) : Nat :=
  if (s.unit n).code = 5 then min (s.rail n).oldV.toNat (effReg s n 2).toNat else refCode s n m

-- currents and temperatures (R118)

/-- The current at V_IMON of controller k, in 10 mA, as a fraction: (V_IMON − IMOFS) / IMGAIN with the controller's own
values (R118, R131). -/
def ampNum (s : State) (k v : Nat) : Int := ((v : Int) - 1000 * (effReg s k 0xB).toNat) * 100
def ampDen (s : State) (k : Nat) : Int := ((effReg s k 0xA).toNat : Int)

/-- The current of controller k exceeds `num`/2 times a limit in 10 mA. -/
def ampOver (s : State) (k v num limit : Nat) : Bool := decide ((num * limit : Nat) * ampDen s k < 2 * ampNum s k v)

/-- The current of a rail at V_IMON of each phase, in 10 mA, as a fraction; for a gang the sum of its phases (R153). -/
def railAmps (s : State) (n : Nat) (vs : List Nat) : Int × Int :=
  ((List.range (gangOf s n + 1)).map fun i => (ampNum s (n + i) (vs.getD i 0), ampDen s (n + i))).foldl
    (fun (p : Int × Int) (q : Int × Int) => (p.1 * q.2 + q.1 * p.2, p.2 * q.2)) (0, 1)

/-- A current as a record holds it: signed, 10 mA per LSB (R153); the rounding is a free value. -/
def ampWord (s : State) (n i : Nat) (vs : List Nat) : Word :=
  let p := railAmps s n vs
  satS (roundFree (Config.freeRoundUp (s.fresh + i)) p.1 p.2)

/-- A stage temperature at V_TMON in µV: (V_TMON − 0.600 V) / (8.0 mV/K) °C, in 0.0625 °C (R118, R153). -/
def tempWord (s : State) (v : Nat) : Word :=
  satS (roundFree (Config.freeRoundUp s.fresh) (((v : Int) - 600000) * 16) 8000)

-- detections (R148)

/-- Word 7 [7:4] of a record (R153): the phase that detected, for the detections that are made on each phase (OC, SHORT,
STAGE_FLT, STAGE_OT); 0 for those on the leader's sense pins. -/
def recordPhase (code : Nat) (m : Meas) : Nat :=
  if code = 3 ∨ code = 4 ∨ code = 6 ∨ code = 7 then m.phase.val else 0

/-- Words 0 to 43 of the last-fault record of a detection (R153), as the rail stands before the cold stop. -/
def recordBody (s : State) (n : Nat) (code : Nat) (m : Meas) : List Word :=
  let u := s.unit n
  let hist := (List.range 16).flatMap fun i =>
    let p := m.hist.getD i (0, [])
    [p.1, ampWord s n (2 + i) p.2]
  [wd (code + 256 * n + 4096 * divOf s n + 0x4000), effReg s n 2, wd (refCode s n m), m.sense,
   ampWord s n 1 m.imon, tempWord s m.tmon, m.vsys, wd (u.code.toNat + 16 * recordPhase code m + 256 * u.gen.toNat)] ++
    hist ++ timeWords s.now

/-- Rail n detects `code` (R148): the cold stop at once, its record due, and the occurrence (R151, R237). -/
def detect (s : State) (n code : Nat) (m : Meas) : State :=
  let body := recordBody s n code m
  let s := detectStop s n fun k => k == n
  { s with recsDue := s.recsDue ++ [body], fresh := s.fresh + 18 }.occur 1 n (BitVec.ofNat 8 code) (some (s.reg 0x1604))

/-- The rails as they stood when the cold stop of the present timebase cycle struck. -/
def beforeStop (s : State) (z : StopSnap) : State :=
  { s with units := z.units, rails := z.rails, ldos := z.ldos, regs := z.regs }

/-- A record due in its place: those of one timebase cycle by ascending rail index (R152). -/
def recordIn (body : List Word) : List (List Word) → List (List Word)
  | [] => [body]
  | b :: bs =>
    if (b.drop 40).take 4 = (body.drop 40).take 4 ∧ field (body.getD 0 0) 11 8 < field (b.getD 0 0) 11 8 then body :: b :: bs
    else b :: recordIn body bs

/-- The stop value that an occurrence of this cold stop is to log, where the collector has not taken it yet. -/
def occStop (old new : Word) (o : Occ) : Occ := if o.stop = some old then { o with stop := some new } else o

/-- Rail code k detected in the timebase cycle whose cold stop another detection caused: it enters FAULTED instead of OFF in
that one transition, and the lowest rail code is the cause's (SEQ_STOP_CAUSE.RAIL). The event flags get `fault`; of those of
`off`, which say that the rail went to OFF, only what stood there before stays. -/
def alsoFaulted (s : State) (z : StopSnap) (k evt off fault : Nat) : State :=
  let was := mget dZero z.regs evt
  let s := (s.setCode k 0xF).setReg evt ((s.reg evt &&& ~~~(wd off)) ||| (was &&& wd off) ||| wd fault)
  let old := s.reg 0x1604
  let new := wd (causeRail + 16 * min k (field old 8 4))
  { s.setReg 0x1604 new with occs := s.occs.map (occStop old new) }

/-- A detection of rail n where `p` holds: on the rail as it is, or, if this cycle's cold stop has already put it in OFF, as
it was (R152; 04_rails.md, "Corner cases"). -/
def detectIf (s : State) (n code : Nat) (m : Meas) (p : State → Bool) : State :=
  if p s then detect s n code m
  else match s.snap with
  | none => s
  | some z =>
    let b := beforeStop s z
    if (s.unit n).code == 0 && (s.unit n).gen == (b.unit n).gen + 1 && p b then
      let s := alsoFaulted s z n (swAddr n 0x11) 2 8
      { s with recsDue := recordIn (recordBody b n code m) s.recsDue, fresh := s.fresh + 18 }.occur 1 n
        (BitVec.ofNat 8 code)
    else s

def railSwitching (s : State) (n : Nat) : Bool := switching (s.unit n).code

/-- The rail switches and is not hushed: the detections that R148 does not arm during a hush. -/
def railPulses (s : State) (n : Nat) : Bool := railSwitching s n && !(s.rail n).hushed

/-- OV (R148). -/
def ovDo (s : State) (n : Nat) (m : Meas) : State :=
  detectIf s n 1 m fun s => railSwitching s n &&
    decide (ovRef s n m * (256 + field (effReg s n 6) 7 0) < m.sense.toNat * 256)

/-- UV (R148). -/
def uvDo (s : State) (n : Nat) (m : Meas) : State :=
  detectIf s n 2 m fun s => ((s.unit n).code == 4 || (s.unit n).code == 5) &&
    decide (m.sense.toNat * 256 < uvRef s n m * (256 - field (effReg s n 6) 15 8))

/-- The phase that detected is one of the rail's. -/
def ownPhase (s : State) (n : Nat) (m : Meas) : Bool := m.phase.val ≤ gangOf s n

/-- OC (R148): the leader's OCP applies to each phase (R131). -/
def ocDo (s : State) (n : Nat) (m : Meas) : State :=
  detectIf s n 3 m fun s => railPulses s n && ownPhase s n m &&
    ampOver s (n + m.phase.val) m.peak 2 (effReg s n 9).toNat

/-- SHORT (R148): the comparator at 1.5 × OCP, or a collapse while current-limited. -/
def shortDo (s : State) (n : Nat) (m : Meas) : State :=
  detectIf s n 4 m fun s =>
    let k := n + m.phase.val
    let ocp := (effReg s n 9).toNat
    railPulses s n && ownPhase s n m && (ampOver s k m.peak 3 ocp ||
      (ampOver s k m.peak 2 ocp && decide (m.sense.toNat * 4 < refCode s n m)))

/-- The current of every phase of rail n is below the leader's OCP. -/
def belowOcp (s : State) (n : Nat) (vs : List Nat) : Bool :=
  (List.range (gangOf s n + 1)).all fun i =>
    decide (ampNum s (n + i) (vs.getD i 0) < (effReg s n 9).toNat * ampDen s (n + i))

/-- OPEN_SENSE, the running check (R148). -/
def openSenseDo (s : State) (n : Nat) (m : Meas) : State :=
  detectIf s n 5 m fun s => railPulses s n && decide (m.sense.toNat * 2 < refCode s n m) && belowOcp s n m.imon

/-- STAGE_FLT (R148): the ball of the detecting phase is low. -/
def stageFltDo (s : State) (n : Nat) (m : Meas) : State :=
  let k := n + m.phase.val
  let s := s.setRail k { s.rail k with fltn := true }
  detectIf s n 6 m fun s => railSwitching s n && ownPhase s n m && bit (effReg s n 1) 7

/-- STAGE_OT (R148). -/
def stageOtDo (s : State) (n : Nat) (m : Meas) : State :=
  detectIf s n 7 m fun s => railSwitching s n && ownPhase s n m &&
    decide (8000 * ((effReg s n 0x10).toNat : Int) < (m.tmon : Int) - 600000)

/-- SSTO (R124). -/
def sstoDo (s : State) (n : Nat) (m : Meas) : State := detectIf s n 8 m fun s => (s.unit n).code == 3

/-- TRACK_ERR (R140), of a tracking rail: one whose MODE is not 0 (R134, R136), whichever law its start follows. -/
def trackErrDo (s : State) (n : Nat) (m : Meas) : State :=
  detectIf s n 9 m fun s =>
    ((s.unit n).code == 2 || (s.unit n).code == 6) && trackMode s n != 0 &&
      decide (10 * field (effReg s n 0xC) 15 8 < ((m.sense.toNat : Int) - (refCode s n m : Int)).natAbs)

/-- START_CHECK_END: the sense moved by `moved` mV; up to 100 mV the ramp begins, beyond it OPEN_SENSE (R148). -/
def startCheckDo (s : State) (n moved : Nat) (m : Meas) : State :=
  if 100 < moved then detectIf s n 5 m fun s => (s.unit n).code == 2 && !(s.rail n).checked
  else if (s.unit n).code = 2 ∧ ¬(s.rail n).checked then s.setRail n { s.rail n with checked := true }
  else s

/-- RAMP_DONE: the reference reaches its target (R119). -/
def rampDo (s : State) (n : Nat) : State :=
  let c := (s.unit n).code
  if (c = 2 ∧ (s.rail n).checked) ∨ c = 5 then
    (s.setCode n 3).setRail n { s.rail n with tracking := false }
  else s

/-- The sense code lies in the power-good window of a reference: reference × (1 ± PGM/256) (R123). -/
def inWindow (s : State) (n ref sense : Nat) : Bool :=
  let pgm := field (effReg s n 7) 7 0
  within (256 * sense) (ref * (256 - pgm)) (ref * (256 + pgm))

/-- SETTLE_DONE: over the last `cycles` timebase cycles without a break the sense code has stayed between `lo` and `hi`, within
the window, for SETTLE × 10 µs, and at least one cycle: the rail enters REGULATING (R123). -/
def settleRail (s : State) (n cycles : Nat) (lo hi : Word) : State :=
  let ref := (effReg s n 2).toNat
  if (s.unit n).code = 3 ∧ max 1 (250 * field (effReg s n 7) 15 8) ≤ cycles ∧ lo.toNat ≤ hi.toNat ∧
      inWindow s n ref lo.toNat ∧ inWindow s n ref hi.toNat then
    railRegulates (s.setRail n { s.rail n with pg := true }) n
  else s

/-- STOP_RAMP_DONE of a rail code (R120, R156). -/
def stopRampDo (s : State) (k : Nat) : State :=
  if (s.unit k).code = 6 then (if k < 16 then railStops s k else ldoStops s (k - 16)) else s

/-- A period boundary after a hush: what was accepted during it takes effect (R147). -/
def afterHush (s : State) (n : Nat) : State :=
  let x := s.rail n
  if x.hushed then s
  else match x.after with
    | none => s.setRail n { x with eff := none }
    | some c => (s.setRail n { x with after := none, eff := none, pg := x.pg && c == 5 }).setCode n c

/-- PER_PHASE_APPLY (R129), a period boundary of the rail, for the first one after a hush too (R147): the table has no other
row for it (DESIGN CHOICE, log entry 70). -/
def perPhaseDo (s : State) (n : Nat) : State := if isFollower s n then s else applyPer (afterHush s n) n

/-- A hush that a converter has requested begins, and its conversion with it (R142, R143, R401); no state word changes (R146).
It begins at a period boundary, which R129 and R147 wait for too. -/
def hushStart (s : State) (n : Nat) : State :=
  if hushAccepts s n ∧ ¬(s.unit n).busy ∧ hushAsked s n ∧ ¬(s.rail n).hushed then
    let s := applyPer (afterHush s n) n
    hushMarks (s.setRail n { s.rail n with hushed := true }) n .asked .hushed
  else s

/-- A hush ends (R144). What was accepted during it waits for the next period boundary (R147). -/
def hushStop (s : State) (n : Nat) : State :=
  if (s.rail n).hushed then s.setRail n { s.rail n with hushed := false } else s

/-- HUSH_END (R144): LEN cycles after the hush began. It began at a period boundary (R143), so where LEN is a whole number of
periods that moment is one too, and R147 acts in it (04_rails.md, "Set-point change during a hush"). -/
def hushEndDo (s : State) (n : Nat) : State :=
  if (s.rail n).hushed ∧ (effReg s n 0xE).toNat % (s.rail n).per.toNat = 0 then afterHush (hushStop s n) n else hushStop s n

/-- The hush ends because the sense voltage fell more than DROOP below the reference (R144); the conversion that it covered
counts as unhushed (R402). -/
def hushDroopDo (s : State) (n : Nat) (sense : Word) : State :=
  if (s.rail n).hushed ∧ sense.toNat + 10 * (effReg s n 0xF).toNat < (effReg s n 2).toNat then
    (hushMarks (hushStop s n) n .hushed .unhushed).orReg (swAddr n 0x11) 4
  else s

/-- ILIM (R149): the current of a phase, at `imon` µV, exceeds OCP, with `left` cycles of the switching island to go in its
period: its pulse ends at once. -/
def ilimDo (s : State) (n i imon left : Nat) : State :=
  let k := n + i
  if railPulses s n && i ≤ gangOf s n && ampOver s k imon 2 (effReg s n 9).toNat then
    s.setRail k { s.rail k with ilim := max 1 (min left (s.rail k).per.toNat) }
  else s

/-- The output of LDO n, as a code of 100 µV, is at or above 15/16 of the set point (R157). -/
def ldoGood (s : State) (n : Nat) (out : Word) : Bool := decide (15 * (s.reg (0x1402 + 0x20 * n)).toNat ≤ 16 * out.toNat)

/-- LDO n's PG rises (R157, R158). -/
def pgRise (s : State) (n : Nat) (out : Word) : State :=
  let c := (s.unit (uLd n)).code
  if !ldoGood s n out then s
  else if c = 2 then ldoRegulates s n
  else if c = 4 ∧ ¬(s.ldo n).pg then (s.setLdo n { s.ldo n with pg := true }).orReg (0x1405 + 0x20 * n) 1
  else s

/-- A detection of LDO n in state `from_` (R158): a cold stop and the occurrence, and no record. -/
def ldoDetect (s : State) (n code : Nat) (from_ : BitVec 4) : State :=
  let k := uLd n
  if (s.unit k).code = from_ then
    let s := detectStop s k fun i => i == k
    s.occur 1 k (BitVec.ofNat 8 code) (some (s.reg 0x1604))
  else match s.snap with
  | none => s
  | some z =>
    let b := (beforeStop s z).unit k
    if (s.unit k).code == 0 && (s.unit k).gen == b.gen + 1 && b.code == from_ then
      (alsoFaulted s z k (0x1405 + 0x20 * n) 0 4).occur 1 k (BitVec.ofNat 8 code)
    else s

-- supervisors

/-- Threshold codes of supervisor n, and its hysteresis, in units of 1.5 mV (R162, R163). -/
def svOv (s : State) (n : Nat) : Nat := (s.reg (0x1502 + 8 * n)).toNat
def svUv (s : State) (n : Nat) : Nat := field (s.reg (0x1503 + 8 * n)) 11 0
def svHyst (s : State) (n : Nat) : Nat := field (s.reg (0x1503 + 8 * n)) 15 12

/-- The condition has held for FILT + 1 consecutive timebase cycles (R163). -/
def svFilter (s : State) (n cycles : Nat) : Bool := field (s.reg (0x1501 + 8 * n)) 14 7 + 1 ≤ cycles

/-- The input, in µV, is beyond the threshold of an event (R163). -/
def svBeyond (s : State) (n : Nat) (high : Bool) (uv : Nat) : Bool :=
  if high then svOv s n * 1500 < uv else uv < svUv s n * 1500

/-- The input, in µV, is back inside by more than the hysteresis (R163). -/
def svInside (s : State) (n : Nat) (high : Bool) (uv : Nat) : Bool :=
  if high then uv + svHyst s n * 1500 < svOv s n * 1500 else (svUv s n + svHyst s n) * 1500 < uv

/-- The event of supervisor n begins (R163 to R165): the input, in µV, lies beyond its threshold for `cycles` timebase
cycles. A detection in the timebase cycle of another's cold stop is part of that stop and has no COLD_STOP entry of its own
(DEDUCED, log entry 62). -/
def svBegin (s : State) (n : Nat) (high : Bool) (uv cycles : Nat) : State :=
  let cfg := s.reg (0x1501 + 8 * n)
  let x := s.sup n
  if bit cfg 0 && svFilter s n cycles && svBeyond s n high uv && (if high then !x.ov else !x.uv && uvArmed s n) then
    let s := (s.setSup n (if high then { x with ov := true } else { x with uv := true })).orReg (0x1504 + 8 * n)
      (if high then 1 else 2)
    if bit cfg 1 then
      let again := stoppedNow s
      let s := detectStop s 0x1F fun _ => false
      s.occur 1 (0x20 + n) (if high then 0x0C else 0x0D) (if again then none else some (s.reg 0x1604))
    else s
  else s

/-- The event of supervisor n ends (R163). An under-voltage event in progress lasts while under-voltage is disarmed: only
the input ends it (log entry 26). -/
def svEnd (s : State) (n : Nat) (high : Bool) (uv cycles : Nat) : State :=
  let x := s.sup n
  if svFilter s n cycles && svInside s n high uv then
    s.setSup n (if high then { x with ov := false } else { x with uv := false })
  else s

-- the events of this chapter

/-- START_CHECK_END (R148). -/
def execStartCheckEnd (n : Fin 16) (moved : Nat) (m : Meas) (s : State) : Host.Outcome State Fault Refusal :=
  done (startCheckDo s n.val moved m)

/-- RAMP_DONE (R119). -/
def execRampDone (n : Fin 16) (s : State) : Host.Outcome State Fault Refusal := done (rampDo s n.val)

/-- SETTLE_DONE (R123). -/
def execSettleDone (n : Fin 16) (cycles : Nat) (lo hi : Word) (s : State) : Host.Outcome State Fault Refusal :=
  done (settleRail s n.val cycles lo hi)

/-- STOP_RAMP_DONE (R122). -/
def execStopRampDone (k : Fin 24) (s : State) : Host.Outcome State Fault Refusal := done (stopRampDo s k.val)

/-- PER_PHASE_APPLY (R129). -/
def execPerPhaseApply (n : Fin 16) (s : State) : Host.Outcome State Fault Refusal := done (perPhaseDo s n.val)

/-- OV (R148). -/
def execOv (n : Fin 16) (m : Meas) (s : State) : Host.Outcome State Fault Refusal := done (ovDo s n.val m)

/-- UV (R148). -/
def execUv (n : Fin 16) (m : Meas) (s : State) : Host.Outcome State Fault Refusal := done (uvDo s n.val m)

/-- OC (R148). -/
def execOc (n : Fin 16) (m : Meas) (s : State) : Host.Outcome State Fault Refusal := done (ocDo s n.val m)

/-- SHORT (R148). -/
def execShort (n : Fin 16) (m : Meas) (s : State) : Host.Outcome State Fault Refusal := done (shortDo s n.val m)

/-- OPEN_SENSE (R148). -/
def execOpenSense (n : Fin 16) (m : Meas) (s : State) : Host.Outcome State Fault Refusal := done (openSenseDo s n.val m)

/-- STAGE_FLT (R148). -/
def execStageFlt (n : Fin 16) (m : Meas) (s : State) : Host.Outcome State Fault Refusal := done (stageFltDo s n.val m)

/-- STAGE_OT (R148). -/
def execStageOt (n : Fin 16) (m : Meas) (s : State) : Host.Outcome State Fault Refusal := done (stageOtDo s n.val m)

/-- SSTO (R124). -/
def execSsto (n : Fin 16) (m : Meas) (s : State) : Host.Outcome State Fault Refusal := done (sstoDo s n.val m)

/-- TRACK_ERR (R140). -/
def execTrackErr (n : Fin 16) (m : Meas) (s : State) : Host.Outcome State Fault Refusal := done (trackErrDo s n.val m)

/-- HUSH_BEGIN (R143). -/
def execHushBegin (n : Fin 16) (s : State) : Host.Outcome State Fault Refusal := done (hushStart s n.val)

/-- HUSH_END (R144). -/
def execHushEnd (n : Fin 16) (s : State) : Host.Outcome State Fault Refusal := done (hushEndDo s n.val)

/-- HUSH_DROOP (R144). -/
def execHushDroop (n : Fin 16) (sense : Word) (s : State) : Host.Outcome State Fault Refusal :=
  done (hushDroopDo s n.val sense)

/-- ILIM (R149). -/
def execIlim (n : Fin 16) (phase : Fin 4) (imon left : Nat) (s : State) : Host.Outcome State Fault Refusal :=
  done (ilimDo s n.val phase.val imon left)

/-- LDO_PG_RISE (R158). -/
def execLdoPgRise (n : Fin 8) (out : Word) (s : State) : Host.Outcome State Fault Refusal := done (pgRise s n.val out)

/-- PG_TIMEOUT (R158). -/
def execPgTimeout (n : Fin 8) (s : State) : Host.Outcome State Fault Refusal :=
  done (ldoDetect s n.val 0x0A 2)

/-- PG_LOSS (R158): the output has been below 15/16 of the set point for 2 timebase cycles. -/
def execPgLoss (n : Fin 8) (out : Word) (s : State) : Host.Outcome State Fault Refusal :=
  done (if ldoGood s n.val out then s else ldoDetect s n.val 0x0B 4)

/-- SV_EVENT_BEGIN (R163). -/
def execSvEventBegin (n : Fin 32) (high : Bool) (uv cycles : Nat) (s : State) : Host.Outcome State Fault Refusal :=
  done (svBegin s n.val high uv cycles)

/-- SV_EVENT_END (R163). -/
def execSvEventEnd (n : Fin 32) (high : Bool) (uv cycles : Nat) (s : State) : Host.Outcome State Fault Refusal :=
  done (svEnd s n.val high uv cycles)

end Sys2Proof.Machine
end

