-- ==== Sys2Proof/Machine/Lcp.lean ====
section
/-! DEFINITION. The load command ports (06_load_command_ports.md): frames, requests, their checks and answers, and the end
of a transaction that is cut short. -/

namespace Sys2Proof.Machine

open Sys2Proof

def lcpAddr (p o : Nat) : Nat := 0x1800 + 0x10 * p + o

/-- The port answers frames: it is enabled (R228); STATUS and READ are served while it is fenced and while its block reset
runs (R212). -/
def lcpOpen (s : State) (p : Nat) : Bool := bit (s.reg (lcpAddr p 1)) 0

/-- CRC-8 of R207 over the low n bits of a number. -/
def crc8 (n x : Nat) : Byte := crc8bits 0x07 0x00 (bitsOf n x)

-- frames

/-- The fields of a request frame after START (R205), and whether its CRC is right. -/
structure LcpFrame where
  slot : Nat
  cmd : Nat
  tag : BitVec 2
  value : Word
  crcOk : Bool
  deriving DecidableEq, Repr

/-- A number from its bits, most significant first. -/
def bitsNat (bs : List Bool) : Nat := bs.foldl (fun n b => 2 * n + b2n b) 0

/-- The 32 bits that follow START (R205), of which the CRC covers bits [39:8], START included. -/
def lcpDecode (bs : List Bool) : LcpFrame :=
  let x := bitsNat bs
  { slot := x >>> 30 % 4, cmd := x >>> 26 % 16, tag := BitVec.ofNat 2 (x >>> 24), value := wd (x >>> 8),
    crcOk := crc8 32 (0x5A * 16777216 + x >>> 8) == BitVec.ofNat 8 x }

/-- The samples of a request frame with a right CRC (R205, R207). -/
def lcpEncode (slot cmd : Nat) (tag : BitVec 2) (value : Word) : List Bool :=
  let x := 0x5A * 16777216 + slot % 4 * 4194304 + cmd % 16 * 262144 + tag.toNat * 65536 + value.toNat
  bitsOf 40 (x * 256 + (crc8 32 x).toNat)

/-- A response frame (R206). -/
def lcpFrame (resp : Nat) (f : LcpFrame) (data : Word) : BitVec 32 :=
  let hi := 8388608 + resp * 1048576 + f.tag.toNat * 262144 + f.slot * 65536 + data.toNat
  BitVec.ofNat 32 (hi * 256 + (crc8 24 hi).toNat)

/-- One more sample in the history of the last eight (R203). -/
def histIn (h : Byte) (b : Bool) : Byte := (h <<< 1) ||| BitVec.ofNat 8 (b2n b)

/-- The port recognises a frame when its last eight samples equal 0x5A: what follows, if it does, and the history
(R203). -/
def lcpScan : Byte → List Bool → Byte × Option (List Bool)
  | h, [] => (h, none)
  | h, b :: bs => let h := histIn h b
    if h = 0x5A then (h, some bs) else lcpScan h bs

abbrev respAccept : Nat := 1
abbrev respReject : Nat := 2
abbrev respPending : Nat := 3
abbrev respData : Nat := 4
abbrev respCrcErr : Nat := 5

/-- The response of the port, with which the transaction ends. A REJECT sets its event whether or not the load clocks it out
(R220; DESIGN CHOICE, log entry 61). -/
def lcpAnswer (s : State) (p resp : Nat) (f : LcpFrame) (data : Word) : State :=
  let s := s.setPort p { (s.port p).ended with resp := lcpFrame resp f data, drives := true }
  if resp = respReject then s.orReg (lcpAddr p 0xD) 4 else s

/-- A saturating count in byte `hi` of LCPn_CNT. -/
def lcpCount (s : State) (p : Nat) (hi : Bool) : State :=
  let w := s.reg (lcpAddr p 0xC)
  let lo := field w 7 0
  let up := field w 15 8
  s.setReg (lcpAddr p 0xC) (wd (if hi then lo + 256 * satInc up 255 else satInc lo 255 + 256 * up))

/-- A request whose CRC does not match: CRCERR, and CRC_ERR after CRCMAX of them in a row (R208, R209). Its detection
starts the count afresh (DESIGN CHOICE, log entry 31). -/
def lcpCrcErr (s : State) (p : Nat) (f : LcpFrame) : State :=
  let s := lcpAnswer ((lcpCount s p false).orReg (lcpAddr p 0xD) 8) p respCrcErr f 0
  let run := (s.port p).crcRun + 1
  let top := field (s.reg (lcpAddr p 1)) 7 4
  if top ≠ 0 ∧ top ≤ run then (s.setPort p { s.port p with crcRun := 0 }).occur 6 (3 * p) 0
  else s.setPort p { s.port p with crcRun := run }

/-- The samples of a request reach port p (R203, R205): until a START, and then until the 32 bits after it are there, the
port only takes them in; `f` is what it does with a whole frame. -/
def lcpSampled (p : Nat) (samples : List Bool) (f : LcpFrame → State → State) (s : State) : State :=
  if !lcpOpen s p then s
  else
    let x := { s.port p with drives := false }
    let (h, rest) := if x.active then (x.hist, some (x.part ++ samples)) else lcpScan x.hist samples
    match rest with
    | none => s.setPort p { x with hist := h }
    | some bs =>
      if bs.length < 32 then s.setPort p { x with hist := h, active := true, part := bs }
      else f (lcpDecode (bs.take 32)) s

/-- A request frame reaches port p, and what `f` does where it is a request of command `cmd`: CRCERR for a bad CRC, REJECT
for an unassigned CMD (R208, R210). A frame of another command is that command's and not this one's. -/
def lcpRequest (p cmd : Nat) (q : LcpReq) (f : LcpFrame → State → State) (s : State) : State :=
  lcpSampled p q.samples (fun x s =>
    if !x.crcOk then lcpCrcErr s p x
    else
      let s' := s.setPort p { s.port p with crcRun := 0 }
      if 6 ≤ x.cmd then lcpAnswer s' p respReject x eUnknown
      else if x.cmd = cmd then f x s'
      else s) s

def slotKey (p : Nat) (f : LcpFrame) : Nat := 4 * p + f.slot

/-- The record that LCPn_OUTm shows (R216, R218): an unreported DONE or NACK first, then a CHANGED that waits; the
record stays after its report, and NONE carries the present GEN. -/
def slotRecord (s : State) (k : Nat) : Word :=
  let x := s.slot k
  if x.unrep then x.record
  else match x.changed with
  | some w => w
  | none => if field x.record 15 14 = 0 then BitVec.setWidth 16 (s.unit (slotRail s k)).gen else x.record

/-- The record that a STATUS returned is reported (R218). -/
def slotReported (x : LcpSlot) : LcpSlot :=
  if x.unrep then
    match x.queue with
    | w :: ws => { x with record := w, queue := ws }
    | [] => { x with unrep := false }
  else match x.changed with
  | some w => { x with record := w, changed := none }
  | none => x

/-- The checks of an inspection (R211, R212). -/
def lcpInspectCode (s : State) (p : Nat) (x : LcpFrame) (valueBad : Bool) : Word :=
  firstFail [(!slotEnabled s (slotKey p x) || valueBad, eRange)]

/-- STATUS (R210, R212, R216, R218). -/
def lcpStatus (s : State) (p : Nat) (q : LcpReq) : State :=
  lcpRequest p 0 q (fun x s =>
    let c := lcpInspectCode s p x (x.value ≠ 0)
    if c ≠ eOk then lcpAnswer s p respReject x c
    else
      let k := slotKey p x
      let s' := lcpAnswer s p respData x (slotRecord s k)
      if q.delivered then s'.setSlot k (slotReported (s.slot k)) else s') s

/-- READ (R210, R212). The STATE word sets LCPn_XGENm whether or not the load clocks the response out (DESIGN CHOICE, log entry
61). -/
def lcpRead (s : State) (p : Nat) (q : LcpReq) : State :=
  lcpRequest p 1 q (fun x s =>
    let c := lcpInspectCode s p x (1 < x.value.toNat)
    if c ≠ eOk then lcpAnswer s p respReject x c
    else
      let k := slotKey p x
      let n := slotRail s k
      if x.value = 0 then lcpAnswer s p respData x (s.reg (0x1002 + 0x40 * n))
      else (lcpAnswer s p respData x (s.unit n).word).setReg (xgenAddr k) (BitVec.setWidth 16 (s.unit n).gen)) s

/-- The decision on a transition request (R211): the port is the requester, and its expected generation is the
implicit generation of R33. -/
def lcpCode (s : State) (p : Nat) (x : LcpFrame) (valueBad : Bool) (rq : RailReq) : Word :=
  let k := slotKey p x
  let n := slotRail s k
  let c := firstFail [(!slotEnabled s k || valueBad || (match rq with | .setv v => !vsetOk n v | _ => false), eRange),
    ((s.unit (uLcp p)).fenced, eFenced)]
  if c ≠ eOk then c
  else railCode s n (ownerIs (s.unit n) .port p) (some ((s.reg (xgenAddr k)).setWidth 8)) rq

/-- A transition request (R210, R213 to R215, R220, R221): ACCEPT or REJECT where the fabric decides in time, PENDING
otherwise; a rejection that is not delivered in the first stage is a NACK in the second. `bad` says that VALUE is none of
the table "Commands". -/
def lcpTransition (s : State) (p cmd : Nat) (q : LcpReq) (bad : LcpFrame → State → Bool)
    (rq : LcpFrame → State → RailReq) : State :=
  lcpRequest p cmd q (fun x s =>
    let k := slotKey p x
    let n := slotRail s k
    let c := lcpCode s p x (bad x s) (rq x s)
    if c = eOk then
      let s := railDo s n srcPort (some (k, x.tag)) (fun _ => false) (rq x s)
      let u := s.unit n
      if q.inTime then lcpAnswer s p respAccept x (wd (u.code.toNat + 256 * u.gen.toNat))
      else lcpAnswer s p respPending x 0
    else
      let s := if q.inTime then lcpAnswer s p respReject x c else lcpAnswer s p respPending x 0
      if q.inTime && q.delivered then s else s.outcome k 2 x.tag (reasonOf c) (s.unit n).gen) s

/-- The set point that an ADJ_V asks for: the present VSET code and a signed delta. -/
def adjSum (s : State) (p : Nat) (x : LcpFrame) : Int :=
  ((s.reg (0x1002 + 0x40 * slotRail s (slotKey p x))).toNat : Int) + x.value.toInt

/-- A transaction that FRAME_TO or CONTENTION ends (R204, R226). -/
def lcpCut (s : State) (p : Nat) (det : Nat) : State :=
  if !lcpOpen s p then s
  else
    let s := s.setPort p (s.port p).ended
    let s := if det = 1 then (lcpCount s p true).orReg (lcpAddr p 0xD) 0x10 else s.orReg (lcpAddr p 0xD) 0x20
    s.occur 6 (3 * p + det) 0

/-- What port p drives on LCPn_DAT from the end of a request, one element to each cycle of LCPn_CLK: nothing in the turnaround, 0
for `wait` cycles, 5 to WMAX of them and all WMAX before PENDING, then the response from bit 31 and the stop (R200, R206,
R214). With EN 0 it drives nothing (R228), nor once the transaction has been ended (R204, R226). -/
def lcpDrive (s : State) (p wait : Nat) : List (Option Bool) :=
  let x := (s.port p).resp
  let top := field (s.reg (lcpAddr p 1)) 15 8
  let n := if x.toNat / 2 ^ 28 % 8 = respPending then top else min (max 5 wait) top
  if !lcpOpen s p || !(s.port p).drives then []
  else [none, none] ++ List.replicate n (some false) ++ (bitsOf 32 x.toNat).map some ++ [some true]

/-- In two consecutive cycles the port drives a level and samples the other (R226). -/
def lcpClash : List (Option Bool) → List Bool → Bool
  | a :: b :: ds, x :: y :: xs => (a == some !x && b == some !y) || lcpClash (b :: ds) (y :: xs)
  | _, _ => false

/-- CONTENTION (R226): the samples show it. -/
def lcpContend (s : State) (x : LcpAnswered) : State :=
  if lcpClash (lcpDrive s x.port.val x.wait) x.samples then lcpCut s x.port.val 2 else s

-- the commands of this chapter

/-- STATUS (R218). -/
def execStatus (p : Fin 4) (q : LcpReq) (s : State) : Host.Outcome State Fault Refusal := done (lcpStatus s p.val q)

/-- READ (R210). -/
def execRead (p : Fin 4) (q : LcpReq) (s : State) : Host.Outcome State Fault Refusal := done (lcpRead s p.val q)

/-- SET_V (R213). -/
def execSetV (p : Fin 4) (q : LcpReq) (s : State) : Host.Outcome State Fault Refusal :=
  done (lcpTransition s p.val 2 q (fun _ _ => false) fun x _ => .setv x.value)

/-- ADJ_V (R210, R213). A sum outside R116 is out of range (R211). -/
def execAdjV (p : Fin 4) (q : LcpReq) (s : State) : Host.Outcome State Fault Refusal :=
  done (lcpTransition s p.val 3 q (fun x s => decide (adjSum s p.val x < 0 ∨ 65535 < adjSum s p.val x))
    fun x s => .setv (BitVec.ofInt 16 (adjSum s p.val x)))

/-- ON (R210). -/
def execOn (p : Fin 4) (q : LcpReq) (s : State) : Host.Outcome State Fault Refusal :=
  done (lcpTransition s p.val 4 q (fun x _ => x.value ≠ 0) fun _ _ => .on)

/-- OFF (R210). -/
def execOff (p : Fin 4) (q : LcpReq) (s : State) : Host.Outcome State Fault Refusal :=
  done (lcpTransition s p.val 5 q (fun x _ => x.value ≠ 0) fun _ _ => .off)

/-- FRAME_TO (R204). -/
def execFrameTo (p : Fin 4) (s : State) : Host.Outcome State Fault Refusal := done (lcpCut s p.val 1)

/-- CONTENTION (R226). -/
def execContention (x : LcpAnswered) (s : State) : Host.Outcome State Fault Refusal := done (lcpContend s x)

end Sys2Proof.Machine
end

