-- ==== Sys2Proof/Machine/View.lean ====
section
/-! DEFINITION. What a read of each register returns, before any effect of the read (the register tables of every chapter;
21_register_index_and_codes.md, R668 to R673). -/

namespace Sys2Proof.Machine

open Sys2Proof

/-- A word from its lowest bits first. -/
def flags (bs : List Bool) : Word := wd (((List.range bs.length).map fun i => flag (bs.getD i false) i).foldl (· + ·) 0)

/-- Sixteen bits of a 256-bit map. -/
def mapWord (v : BitVec 256) (w : Nat) : Word := (v >>> (16 * w)).setWidth 16

/-- Sixteen flags `f (16 w)` to `f (16 w + 15)`. -/
def flagWord (f : Nat → Bool) (w : Nat) : Word := flags ((List.range 16).map fun i => f (16 * w + i))

-- blocks

/-- GLB_LOAD_ST.PHASE (R79). -/
def phaseCode (s : State) : Nat :=
  match s.boot.phase with
  | .retention => 1
  | .load => 2
  | .ready => 3
  | .running => 4
  | .testHold => 5
  | _ => 0

/-- GLB_SUP_ST. -/
def supWord (s : State) : Word :=
  flags [s.supply.vsysOk, s.supply.aonOk, s.supply.serOk, s.supply.seraOk, s.supply.vbatOk, stopLow s,
    s.errN.drv || s.errN.low, s.stopN.drv, s.errN.drv]

/-- A device-time word: of the requester's snapshot where there is one (R53). -/
def timeWord (s : State) (r : Req) (i : Nat) : Word := (timeWords ((s.req r).tsnap.getD s.now)).getD i 0

def glbView (s : State) (r : Req) (a : Nat) : Word :=
  match a with
  | 0x10 => (s.req .spt).lasterr
  | 0x11 => (s.req .i2ca).lasterr
  | 0x12 => (s.req .uart).lasterr
  | 0x13 => (s.req .ring).lasterr
  | 0x14 => (s.req .floor).lasterr
  | 0x15 => (s.req r).lasterr
  | 0x18 => timeWord s r 2
  | 0x19 => timeWord s r 3
  | 0x1A => s.now.setWidth 16
  | 0x1B => timeWord s r 1
  | 0x20 => (s.reg 0x0020 &&& 0xFFF8) ||| wd (phaseCode s)
  | 0x42 => supWord s
  | _ => s.reg a

def unitView (s : State) (r : Req) (a : Nat) : Word :=
  if a < 0x500 then (s.unit (a - 0x400)).word
  else if 0x510 ≤ a ∧ a ≤ 0x517 then mget dZero s.ledger ((s.reg 0x0509).toNat * 8 + (a - 0x510))
  else match a with
  | 0x500 => (s.req r).cgrp.setWidth 16
  | 0x501 => flags ((List.range 8).map fun g => s.draught.any fun e => e.group.toNat = g)
  | 0x502 => wd s.draught.length
  | 0x504 => s.commitNo.setWidth 16
  | 0x505 => (s.commitNo >>> 16).setWidth 16
  | _ => s.reg a

/-- The source that FLT_SEL names. -/
def selSource (s : State) : Nat := 256 * field (s.reg 0x0808) 11 8 + field (s.reg 0x0808) 7 0

def fltView (s : State) (a : Nat) : Word :=
  if 0x870 ≤ a ∧ a ≤ 0x89F then mget dZero s.store ((s.reg 0x0861).toNat * 48 + (a - 0x870))
  else match a with
  | 0x801 => s.unack.setWidth 16
  | 0x803 => flags ((List.range 10).map fun c => s.fsrc.any fun p => p.1 / 256 = c && p.2.present)
  | 0x804 => s.errnHold.setWidth 16
  | 0x809 => (mget dLvl s.flvl (selSource s)).setWidth 16
  | 0x80A =>
    let f := s.flt (selSource s)
    flags [f.present, f.pend, f.transient] ||| wd (256 * f.count.toNat)
  | _ => s.reg a

def logView (s : State) (a : Nat) : Word :=
  if 0xC10 ≤ a ∧ a ≤ 0xC1F then mget dZero s.log ((s.reg 0x0C08).toNat * 16 + (a - 0xC10))
  else match a with
  | 0xC01 => (s.reg 0x0C01 &&& 1) ||| wd (flag (logFull s) 1)
  | 0xC05 => s.logLost.setWidth 16
  | 0xC06 => (s.logLost >>> 16).setWidth 16
  | _ => s.reg a

/-- SWn_ST.PG (R123): the window condition as last judged, in STARTING, SETTLING, REGULATING and SLEWING, and always 0 on a
gang follower. -/
def railPg (s : State) (n : Nat) : Bool := within (s.unit n).code.toNat 2 5 && (s.rail n).pg

/-- SWn_ST.ILIM (R149): the current limit of a phase of the rail acts in its present period. -/
def railIlim (s : State) (n : Nat) : Bool :=
  (List.range (if isFollower s n then 1 else gangOf s n + 1)).any fun i => (s.rail (n + i)).ilim != 0

/-- SW, LD and SV: the status registers, and the stored ones. -/
def railView (s : State) (a : Nat) : Word :=
  if a < 0x1400 then
    let x := s.rail ((a - 0x1000) / 0x40)
    if (a - 0x1000) % 0x40 = 0 then flags [railPg s ((a - 0x1000) / 0x40), x.hushed, railIlim s ((a - 0x1000) / 0x40), x.fltn] else s.reg a
  else if a < 0x1500 then
    let x := s.ldo ((a - 0x1400) / 0x20)
    if (a - 0x1400) % 0x20 = 0 then flags [x.pg, x.ilim] else s.reg a
  else
    let n := (a - 0x1500) / 8
    if (a - 0x1500) % 8 = 0 then flags [(s.sup n).ov, (s.sup n).uv, uvArmed s n] else s.reg a

/-- An unreported record of slot k. -/
def slotUnrep (s : State) (k : Nat) : Bool := (s.slot k).unrep || (s.slot k).changed.isSome

/-- LCPn_ALERT_N is driven low: some slot of an enabled port holds an unreported record (R219, R228). -/
def lcpAlert (s : State) (p : Nat) : Bool :=
  bit (s.reg (lcpAddr p 1)) 0 && [0, 1, 2, 3].any fun m => slotUnrep s (4 * p + m)

def lcpView (s : State) (a : Nat) : Word :=
  let p := (a - 0x1800) / 0x10
  let o := (a - 0x1800) % 0x10
  let slots := (List.range 4).map fun m => s.slot (4 * p + m)
  if o = 0 then
    let unrep := (List.range 4).map fun m => slotUnrep s (4 * p + m)
    flags ([lcpAlert s p, (s.port p).active] ++ slots.map (fun x => !x.inflight.isEmpty) ++ unrep)
  else if 8 ≤ o ∧ o < 12 then slotRecord s (4 * p + (o - 8))
  else s.reg a

def chgView (s : State) (a : Nat) : Word :=
  match a with
  | 0x1A00 =>
    let c := s.chg
    flags [c.vinOk, c.ingate, c.pathOn, c.ilimVin || c.scan, s.present 2 0, c.scan, c.batp] |||
      -- the cause of a suspension is shown while the state is SUSPENDED (R509)
      wd (256 * c.reason.toNat + 4096 * (if (s.unit uChg).code = 8 then c.susp.toNat else 0))
  | 0x1A1D => vinregLive s
  | _ => s.reg a

/-- The router as an access finds it: awake, with the present assertions (R378). -/
def irqSeen (s : State) : Irq := settleIrq (irqAccess s)

def irqView (s : State) (a : Nat) : Word :=
  let q := irqSeen s
  if a < 0x1C20 then srcWord q.pend (a - 0x1C00)
  else if a < 0x1C30 then srcWord q.asrt (a - 0x1C20)
  else if a < 0x1C50 then srcWord q.claimed (a - 0x1C30)
  else if a < 0x1C60 then srcWord q.held (a - 0x1C50)
  else if 0x1C80 ≤ a ∧ a < 0x1D40 then srcWord (q.enOf ((a - 0x1C80) / 32)) ((a - 0x1C80) % 32)
  else if 0x1D48 ≤ a ∧ a ≤ 0x1D4D then
    let t := a - 0x1D48
    wd ((q.presOf t).getD 0x3FE + flag (q.eligible t != 0) 15)
  else match a with
  | 0x1D40 | 0x1D41 | 0x1D42 | 0x1D43 | 0x1D44 | 0x1D45 => 0
  | 0x1D59 => s.extLvl.setWidth 16
  | 0x1D61 => s.reg 0x1D61 &&& 0xFF02
  | _ => s.reg a

def engView (s : State) (r : Req) (a : Nat) : Word :=
  if a < 0x2100 then
    let n := (a - 0x2000) / 0x40
    let e := s.eng n
    match (a - 0x2000) % 0x40 with
    | 0x0 => flags [e.iact, e.exc, e.nmiact, e.nmiheld] ||| (s.reg a &&& 0xFF00)
    | 0xB => (s.req (engReq n)).lasterr
    | _ => s.reg a
  else if 0x2400 ≤ a ∧ a < 0x2480 then
    let e := s.eng ((a - 0x2400) / 0x20)
    let o := (a - 0x2400) % 0x20
    match o with
    | 0x0 => (s.reg a &&& 0x000D) ||| flags [e.halted, e.stepArm]
    | 0x1 => flags [e.halted] ||| (s.reg a &&& 0x0006)
    | 0x2 => e.pc
    | 0x3 => e.flags.setWidth 16
    | _ => if 0x10 ≤ o then e.greg (o - 0x10) else s.reg a
  else match a with
  | 0x2100 => 0
  | 0x2102 => match r.eng with
    | some n => wd n
    | none => 0xFFFF
  | _ => s.reg a

/-- The measurement and tap registers. MEA_MCn_ST shows mode and sources as they are in effect (DESIGN CHOICE, log entry 41). -/
def meaView (s : State) (r : Req) (a : Nat) : Word :=
  if a < 0x3020 then
    let c := (a - 0x3000) / 4
    if a % 4 = 2 then
      flags [(s.conv c).muxed] ||| wd (2 * (s.conv c).srcs.length + 256 * min 255 (boundTaps s c).length)
    else s.reg a
  else if 0x3038 ≤ a ∧ a ≤ 0x3041 then wd (heldBy s (a - 0x3038))
  else if 0x3140 ≤ a ∧ a ≤ 0x317F then selWord s r (a - 0x3140)
  else match a with
  | 0x3022 => flags [s.mea.extrefOk, s.mea.refReady]
  | 0x3042 => wd (poolFree s)
  | 0x3043 => wd (poolShFree s)
  | 0x3100 => (s.req r).selDev.setWidth 16
  | 0x3101 => (s.req r).selH
  | 0x3102 => qstWord s r
  | _ => s.reg a

def ringView (s : State) (a : Nat) : Word :=
  if 0x4010 ≤ a ∧ a < 0x4020 then flagWord (ringPresent s) (a - 0x4010)
  else if 0x4020 ≤ a ∧ a < 0x4030 then mapWord s.ring.release (a - 0x4020)
  else if 0x4040 ≤ a ∧ a < 0x4080 then
    let n := (a - 0x4040) / 0x10
    let x := s.lane n
    let c := (s.unit (uLane n)).code
    match (a - 0x4040) % 0x10 with
    | 1 => flags [c == 4, 96 ≤ x.cnt, 128 ≤ x.cnt, c == 3, x.prbsLock]
    | 2 => wd x.cnt
    | _ => s.reg a
  else match a with
  | 0x4001 =>
    flags [ringUpNow s, ringWrapNow s, ringMaster s, ringTimeOk s, s.ring.dup, upEast s] |||
      wd (256 * (ringHops s).toNat)
  | 0x4002 => wd ((s.ring.master.getD 0).toNat + flag s.ring.master.isSome 8)
  | _ => s.reg a

def floorView (s : State) (a : Nat) : Word :=
  let f := s.floor
  if 0x4820 ≤ a ∧ a < 0x4830 then flagWord (floorPresent s) (a - 0x4820)
  else if 0x4830 ≤ a ∧ a < 0x4840 then mapWord f.alarm (a - 0x4830)
  else if 0x4850 ≤ a ∧ a < 0x4860 then mapWord f.release (a - 0x4850)
  else match a with
  | 0x4801 =>
    flags [f.timed, f.master, floorWarn s, floorPassive s, f.mute, floorRing s, f.dup, (s.unit uFloor).code == 4] |||
      wd (256 * (if floorRing s then 0 else min 15 f.hold))
  | 0x4802 => wd ((f.masterId.getD 0).toNat + flag (f.masterId.isSome && f.bAge < 8) 8)
  | 0x4803 => wd f.tx
  | 0x4804 => wd f.rx
  | 0x4805 => (floorCycle s).setWidth 16
  | 0x4806 => (floorCycle s >>> 16).setWidth 16
  | _ => s.reg a

/-- I2CB_RST_N is low (R575). -/
def rstOut (s : State) : Bool :=
  bit (s.reg 0x530E) 0 || !bit (s.reg 0x5301) 0 || (s.unit uI2cb).fenced

/-- I2Cx_ST: BUSBUSY is free while the port's own transfer waits or runs. I2C-A holds SCL while it makes an access itself (R564,
R566); to any other requester STRETCH is free while the host's transaction addresses the port, and 0 otherwise. -/
def i2cWord (s : State) (r : Req) (x : I2c) (rst : Bool) : Word :=
  flags [x.busy || (x.mbusy && Config.freeBusy s.fresh), x.scl, x.sda,
    x.busy && x.mine && (r == .i2ca || Config.freeStretch s.fresh), rst]

def portView (s : State) (r : Req) (a : Nat) : Word :=
  match a with
  | 0x5003 => s.sphUse
  | 0x5014 => 0
  | 0x5100 => flags [s.spt.active, s.spt.mode3, s.spt.crcOn]
  | 0x5200 => i2cWord s r s.i2ca false
  | 0x520A | 0x530A => 0
  | 0x520B => (s.reg a &&& 0x7FFF) ||| wd (flag s.i2ca.mbusy 15)
  | 0x5300 => i2cWord s r s.i2cb (rstOut s)
  | 0x530B => (s.reg a &&& 0x7FFF) ||| wd (flag s.i2cb.mbusy 15)
  | 0x5400 => wd (s.uart.rx.length + 256 * s.uart.tx.length + flag (!s.uart.sending && s.uart.left == 0) 13)
  | 0x5404 => 0
  | _ => s.reg a

/-- The timer, GPIO, timebase and RTC registers. The W1S bits TMRn_CTRL.START, TMRn_CTRL.STOP and RTC_CTRL.SET read 0: the
manual gives no rule for when they clear, and what each does is done at the write (R3, R596, R605; DESIGN CHOICE, log
entry 36). -/
def timeView (s : State) (r : Req) (a : Nat) : Word :=
  if a < 0x5880 then
    let n := (a - 0x5800) / 0x10
    match (a - 0x5800) % 0x10 with
    | 0 => flags [(s.timer n).run, timerFrozen s n, (s.timer n).bufNew, timerOut s n]
    | 3 => 0
    | _ => s.reg a
  else
    let cal := (s.req r).csnap.getD (calWords s.rtc)
    match a with
    | 0x5882 => flags ((List.range 8).map fun n => ballLevel s n)
    | 0x5900 => flags [s.rtc.valid, s.rtc.lock, s.rtc.onbat, s.rtc.oscok]
    | 0x5901 => 0
    | 0x5902 => cal.1
    | 0x5903 => cal.2.1
    | 0x5904 => cal.2.2
    | 0x5905 => wd s.rtc.sub
    | _ => s.reg a

def otpView (s : State) (r : Req) (a : Nat) : Word :=
  match a with
  | 0x6000 => flags [s.otp.kiln.isSome, kilnOk s, bit (s.reg 0x6000) 2]
  | 0x6002 => (s.req r).otpSel.setWidth 16
  | 0x6003 => mget dZero s.otp.shown (s.req r).otpSel.toNat
  | _ => s.reg a

/-- The live value at an address for requester r, with no effect of R673. -/
def liveView (s : State) (r : Req) (a : Nat) : Word :=
  match (regInfo a).acc with
  | .unmapped | .reserved | .wo => 0
  | _ =>
    if a < 0x0400 then glbView s r a
    else if a < 0x0800 then unitView s r a
    else if a < 0x0C00 then fltView s a
    else if a < 0x1000 then logView s a
    else if a < 0x1600 then railView s a
    else if a < 0x1800 then (if a = 0x1600 then seqWord s else s.reg a)
    else if a < 0x1A00 then lcpView s a
    else if a < 0x1C00 then chgView s a
    else if a < 0x2000 then irqView s a
    else if a < 0x2800 then engView s r a
    else if a < 0x4000 then meaView s r a
    else if a < 0x4800 then ringView s a
    else if a < 0x5000 then floorView s a
    else if a < 0x5600 then portView s r a
    else if a < 0x5A00 then timeView s r a
    else if a < 0x7000 then otpView s r a
    else if a < 0x8000 then mget dZero (s.req r).bank (a - 0x7000)
    else s.sramAt (a - 0x8000)

/-- What a read of an address returns to requester r, before its effects: a _HI word that the requester has latched
returns the latched value (R7, R8). -/
def view (s : State) (r : Req) (a : Nat) : Word :=
  if pairHi a then (mget dLatch (s.req r).latch (a - 1)).getD (liveView s r a) else liveView s r a

end Sys2Proof.Machine
end

