-- ==== Sys2Proof/Machine/Access.lean ====
section
/-! DEFINITION. Register accesses: the checks of a read and of a write in the order of R38, what each does, and the
command mailbox (00_scope.md, R3 to R12, R682; 01_architecture.md, R38 to R50, R684; 21_register_index_and_codes.md,
R668 to R673). -/

namespace Sys2Proof.Machine

open Sys2Proof

-- who can make an access

/-- Accesses are served from the load phase on (R83). -/
def servesAccesses (s : State) : Bool :=
  match s.boot.phase with
  | .load | .ready | .running | .testHold => true
  | _ => false

/-- The interface or engine of a requester can carry an access at all: a fenced interface carries reads, in its block reset
too (R242). -/
def portUp (s : State) (r : Req) : Bool :=
  match r with
  | .spt => true
  -- the settings in effect, which a commit reaches only between transactions (R562, R580)
  | .i2ca => bit (s.i2ca.live.getD 0 0) 0
  | .uart => bit s.uart.cfg 0
  | .ring => ringOn s
  | .floor => s.floor.timed
  | .loader => s.boot.phase = .load
  | .engine n => !(s.unit (uEng n.val)).fenced

/-- Requester r can make an access now. -/
def mayAccess (s : State) (r : Req) : Bool := servesAccesses s && portUp s r

/-- The code of a rejected access of r goes to its last-error register (R49, R671). -/
def recordErr (s : State) (r : Req) (c : Word) : State := noteCode s r c

/-- The RTC block is locked but for reads of RTC_ST (R610). -/
def rtcLocked (s : State) (a : Nat) : Bool := s.rtc.lock && 0x5900 ≤ a && a < 0x5A00

-- reads

/-- The checks of a read (R366, R610, R634, R669). -/
def readCode (s : State) (r : Req) (a : Nat) : Word :=
  firstFail [((regInfo a).acc == .unmapped, eRange), (rtcLocked s a && a != 0x5900, eLocked), (heldAddr s a, eProof),
    ((a == 0x1D40 || a == 0x1D41) && !r.isMgmt, eOwner)]

/-- UART_RXD as a word (16_i2c_and_uart.md, "Registers"). -/
def rxWord (c : UartChar) : Word :=
  wd (c.data.toNat + flag c.fe 8 + flag c.pe 9 + flag c.brk 10 + flag true 15)

/-- The UART is in raw mode (R579). -/
def uartRaw (s : State) : Bool := bit s.uart.cfg 1

/-- A read of UART_RXD pops the oldest entry, in raw mode only (R578, R579). -/
def uartPop (s : State) : Word × State :=
  match uartRaw s, s.uart.rx with
  | true, c :: cs => (rxWord c, { s with uart := { s.uart with rx := cs } })
  | _, _ => (0, s)

/-- A word read from recipe SRAM (RSRAM_CE, RSRAM_UE) or from a block of the buffer pool (POOL_UE): what the read meets in it is
free (R232; DESIGN CHOICE, log entry 78). -/
def memoryRead (s : State) (a : Nat) (v : Word) : Word × State :=
  let e := Config.freeEcc s.fresh
  if e = 2 then (Config.freeEccWord s.fresh, s.tick.occur 8 (if 0x8000 ≤ a then 1 else 2) 0)
  else (v, if e = 1 ∧ 0x8000 ≤ a then s.tick.occur 8 0 0 else s.tick)

/-- A read at this address takes a word from recipe SRAM, or from the block that the requester's window shows. -/
def readsMemory (s : State) (r : Req) (a : Nat) : Bool :=
  (0x8000 ≤ a && a < 0xA000) || (0x3140 ≤ a && a ≤ 0x317F && (match selQueue s r with
    | some (_ :: _) => true
    | _ => false))

/-- A served read: its value, and the state after its effects (R7, R52, R232, R604, R673). -/
def readValue (s : State) (r : Req) (a : Nat) : Word × State :=
  let v := view s r a
  let q := s.req r
  match a with
  | 0x001A => (v, s.setReq r { q with tsnap := some s.now })
  | 0x1D40 => irqClaim s 4
  | 0x1D41 => irqClaim s 5
  | 0x5404 => uartPop s
  | 0x5905 => (v, s.setReq r { q with csnap := some (calWords s.rtc) })
  | 0x5200 | 0x5300 => (v, s.tick)
  | _ =>
    if pairLo a then (v, s.setReq r { q with latch := mset dLatch q.latch a (some (liveView s r (a + 1))) })
    else if 0x1C00 ≤ a ∧ a < 0x2000 then (v, irqAccess s)
    else if readsMemory s r a then memoryRead s a v
    else (v, s)

/-- A read by requester r: the state after, its code, and its value; a rejected one delivers 0x0000 (R669). -/
def busRead (s : State) (r : Req) (a : Nat) : State × Word × Word :=
  let c := readCode s r a
  if c ≠ eOk then (recordErr s r c, c, 0)
  else
    let (v, s) := readValue s r a
    (s, eOk, v)

-- the mailbox

/-- An argument word of a bank. -/
def bankArg (s : State) (r : Req) (i : Nat) : Word := mget dZero (s.req r).bank (2 + i)

/-- DRAUGHT_READ (R298): an unstaged address shows what a read would return. -/
def opDraughtRead (s : State) (r : Req) (a : Nat) : State × Word × List Word :=
  if (regInfo a).acc == .unmapped then (s, eRange, [])
  else match s.staged a with
  | some e =>
    let gen : Byte := match s.holding ((holderOf a).getD .seq) with
      | some h => h.gen
      | none => 0
    (s, eOk, [e.word, wd (e.group.toNat + 0x8000), gen.setWidth 16])
  | none =>
    let v := if readCode s r a = eOk then view s r a else 0
    (s.tick, eOk, [v])

/-- A tap operation: on this device's taps, or sent over the ring to the home device (R414). The checks of its arguments
come before the one that the home device can be reached (R38, R393). -/
def opTap (s : State) (r : Req) (op : Word) (a : Nat → Word) : State × Word × List Word :=
  let dst : Byte := (a 0).setWidth 8
  if dst = devId s then
    match op.toNat with
    | 0x0501 => opTapOpen s r a
    | 0x0502 => opTapClose s r a
    | _ => opTapInfo s a
  else
    let c := firstFail [(tapFarCode op a == eReserved, eReserved), (tapFarCode op a == eRange, eRange),
      (!ringReach s dst, eUnreach), (8 ≤ s.ring.pend.length, eExhausted)]
    if c ≠ eOk then (s, c, [])
    else
      (ringSend s r { kind := 3, dst := dst, src := ringSelf s, tag := 0, count := 6, code := op,
                      data := [a 0, a 1, a 2, a 3, a 4, a 5] }, ePending, [])

/-- A mailbox operation: the state after, the final code or PENDING, and the results. An unassigned code completes with
E_UNKNOWN_OP (R46). -/
def runOp (s : State) (r : Req) (op : Word) (a : Nat → Word) : State × Word × List Word :=
  match op.toNat with
  | 0x0101 => opUnitInspect s (a 0)
  | 0x0102 => opUnitGive s r (a 0) (a 1) (a 2)
  | 0x0103 => opUnitTake s r (a 0) (a 1)
  | 0x0104 => opUnitRelease s r (a 0) (a 1)
  | 0x0105 => opUnitFence s r (a 0) (a 1)
  | 0x0201 => opCommit s r (a 0)
  | 0x0202 => opAbort s (a 0)
  | 0x0203 => opDraughtRead s r (a 0).toNat
  | 0x0204 => opLogWrite s ((List.range 8).map a)
  | 0x0301 => opSeqPowerOn s
  | 0x0302 => opSeqShutdown s
  | 0x0303 => opSeqColdStop s (a 0)
  | 0x0401 => opFltInject s (a 0) (a 1)
  | 0x0402 => opStoreErase s (a 0)
  | 0x0501 | 0x0502 | 0x0503 => opTap s r op a
  | 0x0601 => opRingRd s r a
  | 0x0602 => opRingWr s r a
  | 0x0603 => opRingCmd s r a
  | 0x0604 => opRingTset s r a
  | 0x0701 => opFlrRd s r a
  | 0x0702 => opFlrWr s r a
  | 0x0703 => opFlrCmd s r a
  | 0x0801 => opChgRestart s r a
  | 0x0901 => opKiln s r a
  | 0x0902 => opMread s r a
  | 0x0903 => opScan s r
  | 0x0A01 => opProofRun s r a
  | 0x0A02 => opProofAbort s r
  | 0x0B01 => opTimeSeed s r
  | _ => (s, eUnknown, [])

/-- A bank's word by its offset from CMD_OP. -/
def setBank (s : State) (r : Req) (i : Nat) (w : Word) : State :=
  s.setReq r { s.req r with bank := mset dZero (s.req r).bank i w }

/-- The operation that CMD_OP names runs with the bank's arguments: it completes, or CMD_STATUS reads PENDING until it does
(R42, R43). -/
def startCmd (s : State) (r : Req) (op : Word) : State :=
  let s := setBank s r 0 op
  let x := runOp s r op (bankArg s r)
  if x.2.1 = ePending then setBank x.1 r 0xA ePending else finishCmd x.1 r x.2.1 x.2.2

/-- A write of CMD_OP (R42, R45): suppressed where CMD_SEQ is that of the last completed command. -/
def writeOp (s : State) (r : Req) (op : Word) : State :=
  if (s.req r).last = some (mget dZero (s.req r).bank 1) then s else startCmd s r op

-- the checks of a write

/-- Addresses that the loader may not write (R101). -/
def loaderLocked (a : Nat) : Bool :=
  a == 0x0002 || (0x0020 ≤ a && a ≤ 0x003F && a != 0x002D) || (0x7000 ≤ a && a < 0x8000)

/-- A fenced interface rejects what is written through it, but for what asks about or releases a unit (R242). -/
def ifaceFenced (s : State) (r : Req) (a : Nat) (v : Word) : Bool :=
  match r.unit with
  | some u => r.isHost && (s.unit u).fenced && !(0x7001 ≤ a && a ≤ 0x7009) && !(a == 0x7000 && (v == 0x0101 || v == 0x0104))
  | none => false

/-- The tap of this device that TAP_POP acts on is fenced (R29, R395). -/
def popFenced (s : State) (r : Req) : Bool :=
  let q := s.req r
  q.selDev == devId s && (match currentTap s q.selH with
    | some (i, _) => (s.unit (uTap i)).fenced
    | none => false)

/-- The write is a request to a unit that is fenced: it stages a field of the unit, pops a block of it, or acts on one of
its own registers (R29, R543, R596). That every register of a unit's block counts, its event flags and masks too, is
DEDUCED (log entry 73). -/
def targetFenced (s : State) (r : Req) (a : Nat) : Bool :=
  match holderOf a with
  | some (.unit n) => (s.unit n).fenced
  | some _ => false
  | none =>
    if a = 0x3103 then popFenced s r
    else (regInfo a).acc != .reserved && (match unitOfAddr a with
      | some n => (s.unit n).fenced
      | none => false)

/-- The requester is not the owner of the unit whose field it stages, or not the target of the completion (R265, R368). -/
def ownerBad (s : State) (r : Req) (a : Nat) : Bool :=
  match holderOf a with
  | some (.unit n) => !reqOwns r (s.unit n)
  | some _ => false
  | none => ((a == 0x1D42 || a == 0x1D43) && !r.isMgmt) || (a == 0x1D44 && r.isMgmt)

/-- The target of a completion register (R368). -/
def cmplTarget (r : Req) (a : Nat) : Nat :=
  if a = 0x1D42 then 4 else if a = 0x1D43 then 5 else (r.eng).getD 0

/-- The engine whose DBG block holds an address, and the offset in it. -/
def dbgEng (a : Nat) : Nat := (a - 0x2400) / 0x20
def dbgOff (a : Nat) : Nat := (a - 0x2400) % 0x20
def inDbg (a : Nat) : Bool := 0x2400 ≤ a && a < 0x2480

/-- The DBG block of the address map (R667). -/
def dbgBlock (a : Nat) : Bool := 0x2400 ≤ a && a < 0x2800

/-- The registers that SPH_ST.XBUSY protects (R543). -/
def xReg (a : Nat) : Bool := (0x5010 ≤ a && a ≤ 0x5014) || (0x5020 ≤ a && a ≤ 0x503F)

/-- The 32-bit field that a write of its _LO word leaves: with the writer's staged _HI word, or, where that stage is empty,
with the _HI word as the draught or the register holds it (R10, R11). -/
def pairWritten (s : State) (r : Req) (a : Nat) (v : Word) : Nat :=
  let hi := match mget dLatch (s.req r).stage a, s.staged (a + 1) with
    | some w, _ => w
    | none, some e => e.word
    | none, none => s.reg (a + 1)
  65536 * hi.toNat + v.toNat

/-- Range of a written word beside the ranges of its own field table (check 4 of R38). The range of MEA_EXTREF is one of the
whole field, so it is judged when its _LO word is written; with an empty stage, on the _HI word it then has beside it
(DESIGN CHOICE, log entry 33). -/
def writeRange (s : State) (r : Req) (a : Nat) (v : Word) : Bool :=
  if 0x4040 ≤ a ∧ a < 0x4080 then (a % 0x10 != 7 || v == 0) && rangeOk a v
  else match a with
  | 0x080B => v == 0
  | 0x1614 => winW3Code s v != eRange
  | 0x1D42 | 0x1D43 | 0x1D44 => sourceNamed v.toNat
  | 0x1D45 => doorbellCode v == eOk
  | 0x3020 => within (pairWritten s r a v) 1000000 5000000
  | 0x480E => v == 0
  | 0x5014 => v == 1
  | 0x520A => v == 1 && field (s.reg 0x5209) 4 0 ≤ 16 && field (s.reg 0x5209) 9 5 ≤ 16
  | 0x530A => v == 1 && field (s.reg 0x5309) 4 0 ≤ 16 && field (s.reg 0x5309) 9 5 ≤ 16
  | 0x5901 => !bit v 0 || setDateOk s
  | _ => rangeOk a v

/-- A lock forbids the write (check 5 of R38), with its code. -/
def lockChecks (s : State) (r : Req) (a : Nat) : List (Bool × Word) :=
  [((regInfo a).acc == .ro, eLocked), (r == .loader && loaderLocked a, eLocked),
   (a == 0x0809 && bit (s.reg 0x0800) 1, eLocked), (rtcLocked s a, eLocked)]

/-- Rejected with E_BUSY whatever the write carries: a host write in the load phase and, because no mailbox command can run
then, a write of CMD_OP by an engine (R83), and a write to the own bank while its command is PENDING (R44). DEDUCED, log
entry 32: these rules name their code for every write, so the model gives them no place in the order of R38. -/
def busyFirst (s : State) (r : Req) (a : Nat) : Bool :=
  (s.boot.phase = .load && ((r.isHost && a != 0x0002) || (r.eng.isSome && a == 0x7000))) || (0x7000 ≤ a && a ≤ 0x700E && bankPending s r)

/-- Something that must be idle is busy (check 11 of R38): a running table (R176), another group of the same holder (R267),
and transfers (R543, R569, R579). -/
def writeBusy (s : State) (r : Req) (a : Nat) (v : Word) : Bool :=
  (seqRunning s && (a == 0x1601 || a == 0x1614 || (0x1608 ≤ a && a ≤ 0x160D))) ||
  (!pairHi a && (match holderOf a with
    | some h => match s.holding h with
      | some d => d.group != (s.req r).cgrp
      | none => false
    | none => false)) ||
  (xReg a && xBusy s) || (a == 0x520A && s.i2ca.mbusy) || (a == 0x530A && s.i2cb.mbusy) ||
  (a == 0x5405 && uartRaw s && 16 ≤ s.uart.tx.length) || (a == 0x1614 && winW3Code s v == eBusy)

/-- The state does not allow the write (check 12 of R38). -/
def writeState (s : State) (r : Req) (a : Nat) (v : Word) : Bool :=
  (inDbg a && (dbgOff a == 2 || dbgOff a == 3 || 0x10 ≤ dbgOff a) && !(s.eng (dbgEng a)).halted) ||
  (0x5800 ≤ a && a < 0x5880 && a % 0x10 == 3 && timerCtrlCode s ((a - 0x5800) / 0x10) v == eState) ||
  (a == 0x5405 && !uartRaw s) || (a == 0x520A && !bit (s.i2ca.live.getD 0 0) 1) ||
  ((a == 0x1D42 || a == 0x1D43 || a == 0x1D44) && cmplCode s (cmplTarget r a) false v == eState) ||
  (a == 0x3103 && popCode s r v == eState)

/-- The handle that is selected or popped is not current (R395; TAP_POP). -/
def writeStale (s : State) (r : Req) (a : Nat) (v : Word) : Bool :=
  (a == 0x3103 && popCode s r v == eStale) ||
  (a == 0x3101 && (s.req r).selDev == devId s && (currentTap s v).isNone)

/-- The draught entries that a write would add (R268): its own, and that of a _HI word staged for it. -/
def newEntries (s : State) (r : Req) (a : Nat) : Nat :=
  let one (b : Nat) : Nat := if (s.staged b).isNone then 1 else 0
  if holderOf a = none ∨ pairHi a then 0
  else one a + (if pairLo a && (mget dLatch (s.req r).stage a).isSome then one (a + 1) else 0)

/-- The code of a write of v at a by requester r: the two rules that name E_BUSY for every write, the debug lock, which
rejects a write to the DBG block whatever value it carries (R348), and the checks of R38 that apply, in its order. -/
def writeCode (s : State) (r : Req) (a : Nat) (v : Word) : Word :=
  let i := regInfo a
  firstFail
    ([(busyFirst s r a, eBusy), (dbgBlock a && otpLock s 4, eOtpLocked), ((i.acc == .reserved && v != 0) || (i.acc != .reserved && i.acc != .unmapped && resBits v i.mask) ||
        (a == 0x1614 && winW3Code s v == eReserved), eReserved),
      (i.acc == .unmapped || (i.acc != .reserved && !writeRange s r a v), eRange)] ++
     lockChecks s r a ++
     [(heldAddr s a, eProof), (ifaceFenced s r a v || targetFenced s r a, eFenced), (ownerBad s r a, eOwner),
      (writeStale s r a v, eStale), (writeBusy s r a v, eBusy), (writeState s r a v, eState),
      (512 < s.draught.length + newEntries s r a && 0 < newEntries s r a, eExhausted)])

-- what an accepted write does

/-- DBGn_CTRL (R3, R344, R346): HALT 0 resumes a halted engine, HALT 1 asks for a halt. STEP is set by a 1 and left alone by a 0,
until the instruction or entry that it stands for has run and the engine halts again; so in an engine that runs, the next one is
its last (DEDUCED, log entry 39). -/
def dbgCtrl (s : State) (n : Nat) (v : Word) : State :=
  let s := s.setReg (0x2400 + 0x20 * n) (v &&& 0x000D)
  let e := s.eng n
  let e := { e with stepArm := e.stepArm || bit v 1 }
  if !bit v 0 then
    s.setEng n { e with halted := false, haltReq := false, skipBp := e.skipBp || e.halted }
  else if !e.halted then s.setEng n { e with haltReq := true }
  else if e.stepArm then s.setEng n { e with halted := false, haltReq := false, skipBp := true }
  else s

/-- The DBG registers that are the engine's own. -/
def dbgWrite (s : State) (a : Nat) (v : Word) : State :=
  let n := dbgEng a
  match dbgOff a with
  | 0 => dbgCtrl s n v
  | 1 => s.setReg a (s.reg a &&& ~~~(v &&& 6))
  | 2 => s.setEng n { s.eng n with pc := v }
  | 3 => s.setEng n { s.eng n with flags := v.setWidth 7 }
  | o => if 0x10 ≤ o then s.setEng n ((s.eng n).setG (o - 0x10) v) else s.setReg a v

/-- A write in the IRQ block (R353 to R356, R368, R372); any access to it ends a deep sleep (R378). -/
def irqWrite (s : State) (r : Req) (a : Nat) (v : Word) : State :=
  let s := irqAccess s
  if a < 0x1C18 then irqPutPend s (a - 0x1C00) v
  else if 0x1C80 ≤ a ∧ a < 0x1D40 then irqPutEn s ((a - 0x1C80) / 32) ((a - 0x1C80) % 32) v
  else match a with
  | 0x1D42 | 0x1D43 | 0x1D44 => irqComplete s (cmplTarget r a) v
  | 0x1D45 => { s with irq := s.irq.ring v.toNat }
  | 0x1D58 => s.setReg a (s.reg a &&& ~~~v)
  | 0x1D61 => s.setReg a (s.reg a &&& ~~~(v &&& 2))
  | _ => s.setReg a v

/-- A write of a last-error register (R57, R671). -/
def clearErr (s : State) (r : Req) : State := s.setReq r { s.req r with lasterr := 0 }

/-- A TMRn register that is not staged (R595, R596). -/
def timerWrite (s : State) (a : Nat) (v : Word) : State :=
  let n := (a - 0x5800) / 0x10
  match a % 0x10 with
  | 3 => timerCtrl s n v
  | 4 => timerSend s n .cnt v
  | 5 => timerSend s n .buf v
  | 6 => timerSend s n .mtch v
  | 7 => s.setReg a (s.reg a &&& ~~~v)
  | _ => s.setReg a v

/-- SPH_XGO (R542): one transfer runs until XDONE. A line fill and a command of the loader begin and end with the event that
brings their bytes, so none is in progress here (DESIGN CHOICE, log entry 64). -/
def xgoDo (s : State) : State := sphIssue (s.orReg 0x5000 8) (directCmd s)

/-- The transfer that the registers of a port from `a` spell (R569, R573): I2C-A has no RECOV. -/
def i2cXfer (s : State) (r : Req) (a : Nat) : I2cXfer :=
  let c := s.reg (a + 9)
  { addr := (s.reg (a + 8)).setWidth 7, wr := (List.range (field c 4 0)).map (dataByte s (a + 0x10)), rd := field c 9 5,
    recov := bit c 10, by_ := r }

/-- I2Cx_MGO (R569, R570): a transfer waits for the bus. -/
def mgoDo (s : State) (r : Req) (p : I2cPort) : State :=
  match p with
  | .a => { s with i2ca := { s.i2ca with mbusy := true, waits := s.i2ca.busy, xfer := some (i2cXfer s r 0x5200) } }
  | .b => { s with i2cb := { s.i2cb with mbusy := true, waits := s.i2cb.busy, xfer := some (i2cXfer s r 0x5300) } }

/-- UART_TXD (R579): a character enters the transmit FIFO. -/
def uartPut (s : State) (v : Word) : State :=
  { s with uart := { s.uart with tx := s.uart.tx ++ [v.setWidth 8], sending := true } }

/-- LOG_RDPTR (R685). -/
def logRdptr (s : State) (v : Word) : State :=
  (s.setReg 0x0C03 v).setReg 0x0C04 (wd (((s.reg 0x0C02).toNat + 4096 - v.toNat) % 4096))

/-- FLR_CLR (13_floor_bus.md, "Registers"). -/
def floorClear (s : State) : State := (s.setReg 0x480C 0).setReg 0x480D 0

/-- An accepted write of a register that is neither staged nor half of a pair. -/
def liveWrite (s : State) (r : Req) (a : Nat) (v : Word) : State :=
  let i := regInfo a
  let q := s.req r
  if i.acc == .reserved || i.acc == .unmapped then (if 0x1C00 ≤ a ∧ a < 0x2000 then irqAccess s else s)
  else if 0x1C00 ≤ a ∧ a < 0x2000 then irqWrite s r a v
  else if inDbg a then dbgWrite s a v
  else if 0x5800 ≤ a ∧ a < 0x5880 then timerWrite s a v
  else if 0x4040 ≤ a ∧ a < 0x4080 ∧ a % 0x10 = 7 then laneClear s ((a - 0x4040) / 0x10)
  else if 0x2000 ≤ a ∧ a < 0x2100 then clearErr s (engReq ((a - 0x2000) / 0x40))
  else if 0x8000 ≤ a then s.setSram (a - 0x8000) v
  else if 0x7000 ≤ a then (if a = 0x7000 then writeOp s r v else setBank s r (a - 0x7000) v)
  else match a with
  | 0x0002 => chipReset s .soft
  | 0x0010 => clearErr s .spt
  | 0x0011 => clearErr s .i2ca
  | 0x0012 => clearErr s .uart
  | 0x0013 => clearErr s .ring
  | 0x0014 => clearErr s .floor
  | 0x0015 => clearErr s r
  | 0x0500 => s.setReq r { q with cgrp := v.setWidth 3 }
  | 0x0805 => dieWarnJudge (s.setReg a v)
  | 0x0800 => errnUpdate (s.setReg a (v ||| (s.reg a &&& 2)))
  | 0x0802 => fltAckDo s r v
  | 0x0809 => { s with flvl := mset dLvl s.flvl (selSource s) (v.setWidth 3) }
  | 0x080B => s.setFlt (selSource s) { s.flt (selSource s) with count := 0 }
  | 0x0C03 => logRdptr s v
  | 0x1610 => winLoad s v
  | 0x1614 => winStore s v
  | 0x2100 => if bit v 0 then { s with cache := [] } else s
  | 0x3100 => s.setReq r { q with selDev := v.setWidth 8 }
  | 0x3101 => s.setReq r { q with selH := v }
  | 0x3103 => tapPopDo s r
  | 0x480E => floorClear s
  | 0x5014 => xgoDo s
  | 0x520A => mgoDo s r .a
  | 0x530A => mgoDo s r .b
  | 0x5405 => uartPut s v
  | 0x5901 => if bit v 0 then rtcSet s else s
  | 0x6002 => s.setReq r { q with otpSel := v.setWidth 8 }
  | _ => if i.acc == .w1c then s.setReg a (s.reg a &&& ~~~(v &&& i.mask &&& ~~~i.roMask)) else s.setReg a v

/-- One word of an accepted write: an RWS word enters the draught of the writer's current group (R265). -/
def putWord (s : State) (r : Req) (a : Nat) (v : Word) : State :=
  match holderOf a with
  | some h => stage s r a v (s.req r).cgrp h
  | none => liveWrite s r a v

/-- The stage of a pair in the writing interface (R9 to R11). -/
def setStage (s : State) (r : Req) (lo : Nat) (v : Option Word) : State :=
  s.setReq r { s.req r with stage := mset dLatch (s.req r).stage lo v }

/-- What an accepted write does: a _HI word is staged, a _LO word takes the staged _HI word with it (R9 to R11). -/
def applyWrite (s : State) (r : Req) (a : Nat) (v : Word) : State :=
  if pairHi a then setStage s r (a - 1) (some v)
  else if pairLo a then
    match mget dLatch (s.req r).stage a with
    | some hi => setStage (putWord (putWord s r a v) r (a + 1) hi) r a none
    | none => putWord s r a v
  else putWord s r a v

/-- A write by requester r: applied whole, or rejected whole with its code recorded (R48, R49). -/
def busWrite (s : State) (r : Req) (a : Nat) (v : Word) : State × Word :=
  let c := writeCode s r a v
  if c ≠ eOk then (recordErr s r c, c) else (applyWrite s r a v, eOk)

end Sys2Proof.Machine
end

