-- ==== Sys2Proof/Machine/Commands.lean ====
section
/-! DEFINITION. The commands that are register accesses and mailbox operations of a requester, the engine's loads and
stores, and remote requests (01_architecture.md; 09_recipe_engines.md, R320; 12_device_ring.md, R453 to R459;
13_floor_bus.md, R499). -/

namespace Sys2Proof.Machine

open Sys2Proof

/-- A write by a requester that can make one now. -/
def reqWrite (s : State) (r : Req) (a : Nat) (v : Word) : State := if mayAccess s r then (busWrite s r a v).1 else s

/-- A read by a requester that can make one now. -/
def reqRead (s : State) (r : Req) (a : Nat) : State := if mayAccess s r then (busRead s r a).1 else s

/-- A mailbox command: a write of its code to CMD_OP, with the arguments that the bank holds. -/
def reqCmd (s : State) (r : Req) (op : Word) : State := reqWrite s r 0x7000 op

-- engine loads and stores

/-- LD (R320): a rejected access leaves rd unchanged and does not trap. -/
def engLd (n : Nat) (d r k : BitVec 4) (s : State) : State :=
  engRun n (fun s =>
    let e := s.eng n
    let a := (e.greg r.toNat).toNat + k.toNat
    let s := s.setEng n { e with pc := e.pc + 1 }
    let x := busRead s (engReq n) (a % 65536)
    if x.2.1 = eOk then x.1.setEng n ((x.1.eng n).setG d.toNat x.2.2) else x.1) s

/-- ST (R320). -/
def engSt (n : Nat) (d r k : BitVec 4) (s : State) : State :=
  engRun n (fun s =>
    let e := s.eng n
    let a := (e.greg r.toNat).toNat + k.toNat
    (busWrite (s.setEng n { e with pc := e.pc + 1 }) (engReq n) (a % 65536) (e.greg d.toNat)).1) s

-- words of a multi-word access, in ascending address order (R455, R583)

/-- n words are read; the first rejection ends it with its code. -/
def readWords (s : State) (r : Req) (a : Nat) : Nat → State × Word × List Word
  | 0 => (s, eOk, [])
  | n + 1 =>
    let x := busRead s r (a % 65536)
    if x.2.1 ≠ eOk then (x.1, x.2.1, [])
    else
      let y := readWords x.1 r (a + 1) n
      (y.1, y.2.1, x.2.2 :: y.2.2)

/-- Words are written; the first rejection ends it with its code. A write that resets the device ends it too. -/
def writeWords (s : State) (r : Req) (a : Nat) : List Word → State × Word × Nat
  | [] => (s, eOk, 0)
  | v :: vs =>
    let x := busWrite s r (a % 65536) v
    if x.2 ≠ eOk then (x.1, x.2, 0)
    else if !servesAccesses x.1 then (x.1, eOk, 1)
    else
      let y := writeWords x.1 r (a + 1) vs
      (y.1, y.2.1, y.2.2 + 1)

-- remote requests

/-- A CMD request: its arguments and operation enter the requester's bank, and the operation runs. The answer leaves when
it completes (R451, R459). -/
def remoteCmd (s : State) (r : Req) (m : Msg) : State :=
  let s := (List.range 8).foldl (fun s i => setBank s r (2 + i) (if i < 6 then m.data.getD i 0 else 0)) s
  startCmd s r m.code

/-- A request received over the ring is executed (R50, R455, R456, R459); `answer` sends and keeps a response, `send` only
sends one, `start` notes the request that a CMD will answer. -/
def remoteRequest (s : State) (r : Req) (kept : Option (Byte × Msg)) (m : Msg)
    (answer send : State → Msg → State) (start : State → State) : State :=
  let self := ringSelf s
  let again := kept.filter fun p => m.tag != 0 && p.1 == m.tag
  let n := m.count.toNat
  match again with
  | some p => send s p.2
  | none =>
    if bankPending s r then send (recordErr s r eBusy) (responseTo self m 0 eBusy [])
    else if m.kind = 3 then
      let c := writeCode s r 0x7000 m.code
      if c ≠ eOk then answer (recordErr s r c) (responseTo self m 0 c []) else remoteCmd (start s) r m
    else if m.kind = 1 then
      if !within n 1 4 then answer (recordErr s r eRange) (responseTo self m 0 eRange [])
      else
        let x := readWords s r m.code.toNat n
        answer x.1 (responseTo self m x.2.2.length x.2.1 x.2.2)
    else
      if !within n 1 5 then answer (recordErr s r eRange) (responseTo self m 0 eRange [])
      else
        let x := writeWords s r m.code.toNat ((List.range n).map fun i => m.data.getD i 0)
        if servesAccesses x.1 then answer x.1 (responseTo self m x.2.2 x.2.1 []) else x.1

/-- RING_REQUEST_RX (R453 to R459): the oldest message taken, where it is a request. With DUP at 1 it is not answered
(R463). -/
def ringRequestDo (s : State) : State :=
  match s.ring.inM with
  | [] => s
  | m :: ms =>
    if !isRequest m then s
    else
      let s := { s with ring := { s.ring with inM := ms } }
      if !servesAccesses s || s.ring.dup then s
      else remoteRequest s .ring (mget dKept s.ring.kept m.src.toNat) m (fun s x => ringAnswer s m x)
        (fun s x => { s with ring := { s.ring with outR := s.ring.outR ++ [x] } })
        (fun s => { s with ring := { s.ring with job := some m } })

/-- A management section of an accepted floor frame (R499, R500). -/
def floorMsg (s : State) (src : Byte) (m : Msg) : State :=
  let m := { m with src := src }
  if m.dst != ringSelf s || src == ringSelf s then s
  else if isRequest m then
    if !servesAccesses s then s
    else remoteRequest s .floor (mget dKept s.floor.kept src.toNat) m (fun s x => floorAnswer s m x)
      (fun s x => { s with floor := { s.floor with outR := s.floor.outR ++ [x] } })
      (fun s => { s with floor := { s.floor with job := some m } })
  else floorResponse s src m

/-- FRAME_RX (R473, R474, R499). -/
def frameRxDo (s : State) (slot : Byte) (err : Int) (cs : List FloorChar) : State :=
  let x := frameTake s slot err cs
  match x.1, floorFrameOf cs with
  | true, some f => match f.mgmt with
    | some m => floorMsg x.2 f.src m
    | none => x.2
  | _, _ => x.2

-- writes

/-- GLB_RESET (R81). -/
def execGlbReset (r : Req) (s : State) : Host.Outcome State Fault Refusal := done (reqWrite s r 0x0002 0xA5C3)

/-- REGISTER_WRITE (R48). -/
def execRegisterWrite (r : Req) (addr val : Word) (s : State) : Host.Outcome State Fault Refusal :=
  done (reqWrite s r addr.toNat val)

/-- STAGED_WRITE (R265). -/
def execStagedWrite (r : Req) (addr val : Word) (s : State) : Host.Outcome State Fault Refusal :=
  done (if (holderOf addr.toNat).isSome then reqWrite s r addr.toNat val else s)

/-- HI_WRITE (R9). -/
def execHiWrite (r : Req) (addr val : Word) (s : State) : Host.Outcome State Fault Refusal :=
  done (if pairHi addr.toNat then reqWrite s r addr.toNat val else s)

/-- LO_WRITE (R10, R11). -/
def execLoWrite (r : Req) (addr val : Word) (s : State) : Host.Outcome State Fault Refusal :=
  done (if pairLo addr.toNat then reqWrite s r addr.toNat val else s)

/-- SEQ_WIN_W3_WRITE (R175). -/
def execSeqWinW3Write (r : Req) (val : Word) (s : State) : Host.Outcome State Fault Refusal :=
  done (reqWrite s r 0x1614 val)

/-- SEQ_WIN_SEL_WRITE (R175). -/
def execSeqWinSelWrite (r : Req) (val : Word) (s : State) : Host.Outcome State Fault Refusal :=
  done (reqWrite s r 0x1610 val)

/-- FLT_ACK (R248). -/
def execFltAck (r : Req) (val : Word) (s : State) : Host.Outcome State Fault Refusal := done (reqWrite s r 0x0802 val)

/-- FLT_SCNT (R252). -/
def execFltScnt (r : Req) (val : Word) (s : State) : Host.Outcome State Fault Refusal := done (reqWrite s r 0x080B val)

/-- LOG_RDPTR_WRITE (R685). -/
def execLogRdptrWrite (r : Req) (val : Word) (s : State) : Host.Outcome State Fault Refusal :=
  done (reqWrite s r 0x0C03 val)

/-- INV (R341). -/
def execInv (r : Req) (s : State) : Host.Outcome State Fault Refusal := done (reqWrite s r 0x2100 1)

/-- DBG_HALT (R344). -/
def execDbgHalt (r : Req) (e : Fin 4) (s : State) : Host.Outcome State Fault Refusal :=
  done (reqWrite s r (0x2400 + 0x20 * e.val) ((s.reg (0x2400 + 0x20 * e.val) &&& 0x000C) ||| 1))

/-- DBG_RESUME (R344). -/
def execDbgResume (r : Req) (e : Fin 4) (s : State) : Host.Outcome State Fault Refusal :=
  done (reqWrite s r (0x2400 + 0x20 * e.val) (s.reg (0x2400 + 0x20 * e.val) &&& 0x000C))

/-- STEP (R346). -/
def execStep (r : Req) (e : Fin 4) (s : State) : Host.Outcome State Fault Refusal :=
  done (reqWrite s r (0x2400 + 0x20 * e.val) ((s.reg (0x2400 + 0x20 * e.val) &&& 0x000D) ||| 2))

/-- IRQ_PEND_WRITE (R355). -/
def execIrqPendWrite (r : Req) (w : Fin 24) (val : Word) (s : State) : Host.Outcome State Fault Refusal :=
  done (reqWrite s r (0x1C00 + w.val) val)

/-- IRQ_DOORBELL (R356). -/
def execIrqDoorbell (r : Req) (val : Word) (s : State) : Host.Outcome State Fault Refusal :=
  done (reqWrite s r 0x1D45 val)

/-- IRQ_CMPL_A (R368). -/
def execIrqCmplA (r : Req) (lineB : Bool) (val : Word) (s : State) : Host.Outcome State Fault Refusal :=
  done (reqWrite s r (if lineB then 0x1D43 else 0x1D42) val)

/-- IRQ_CMPL_E (R368). -/
def execIrqCmplE (r : Req) (val : Word) (s : State) : Host.Outcome State Fault Refusal := done (reqWrite s r 0x1D44 val)

/-- A write of TAP_POP, and whether the buffer pool then finds an uncorrectable error in the block that it gives back
(R232, POOL_UE). -/
def tapPopWrite (s : State) (r : Req) (val : Word) (ue : Bool) : State :=
  let t := reqWrite s r 0x3103 val
  if ue && mayAccess s r && writeCode s r 0x3103 val == eOk then t.occur 8 2 0 else t

/-- TAP_POP (11_taps_and_measurement.md, "TAP registers"). -/
def execTapPop (r : Req) (val : Word) (ue : Bool) (s : State) : Host.Outcome State Fault Refusal :=
  done (tapPopWrite s r val ue)

/-- LANEN_CLR (R433). -/
def execLanenClr (r : Req) (n : Fin 4) (val : Word) (s : State) : Host.Outcome State Fault Refusal :=
  done (reqWrite s r (laneAddr n.val 7) val)

/-- FLR_CLR (13_floor_bus.md, "Registers"). -/
def execFlrClr (r : Req) (val : Word) (s : State) : Host.Outcome State Fault Refusal := done (reqWrite s r 0x480E val)

/-- XGO (R542, R543). -/
def execXgo (r : Req) (val : Word) (s : State) : Host.Outcome State Fault Refusal := done (reqWrite s r 0x5014 val)

/-- MGO (R569). -/
def execMgo (r : Req) (p : I2cPort) (val : Word) (s : State) : Host.Outcome State Fault Refusal :=
  done (reqWrite s r (match p with
    | .a => 0x520A
    | .b => 0x530A) val)

/-- UART_TXD (R579). -/
def execUartTxd (r : Req) (val : Word) (s : State) : Host.Outcome State Fault Refusal := done (reqWrite s r 0x5405 val)

/-- START (R596). -/
def execStart (r : Req) (n : Fin 8) (s : State) : Host.Outcome State Fault Refusal :=
  done (reqWrite s r (tmrAddr n.val 3) 1)

/-- STOP (R596). -/
def execStop (r : Req) (n : Fin 8) (s : State) : Host.Outcome State Fault Refusal :=
  done (reqWrite s r (tmrAddr n.val 3) 2)

/-- SET (R605). -/
def execSet (r : Req) (s : State) : Host.Outcome State Fault Refusal := done (reqWrite s r 0x5901 1)

-- reads

/-- LO_READ (R7). -/
def execLoRead (r : Req) (addr : Word) (s : State) : Host.Outcome State Fault Refusal :=
  done (if pairLo addr.toNat then reqRead s r addr.toNat else s)

/-- TIME_SNAPSHOT (R52). -/
def execTimeSnapshot (r : Req) (s : State) : Host.Outcome State Fault Refusal := done (reqRead s r 0x001A)

/-- IRQ_CLAIM_A (R362 to R366). -/
def execIrqClaimA (r : Req) (lineB : Bool) (s : State) : Host.Outcome State Fault Refusal :=
  done (reqRead s r (if lineB then 0x1D41 else 0x1D40))

/-- UART_RXD (R578). -/
def execUartRxd (r : Req) (s : State) : Host.Outcome State Fault Refusal := done (reqRead s r 0x5404)

/-- RTC_SUB_READ (R604). -/
def execRtcSubRead (r : Req) (s : State) : Host.Outcome State Fault Refusal := done (reqRead s r 0x5905)

-- mailbox commands

/-- UNIT_INSPECT (R29). -/
def execUnitInspect (r : Req) (s : State) : Host.Outcome State Fault Refusal := done (reqCmd s r 0x0101)

/-- UNIT_GIVE (R40). -/
def execUnitGive (r : Req) (s : State) : Host.Outcome State Fault Refusal := done (reqCmd s r 0x0102)

/-- UNIT_TAKE (R40). -/
def execUnitTake (r : Req) (s : State) : Host.Outcome State Fault Refusal := done (reqCmd s r 0x0103)

/-- UNIT_RELEASE (R40). -/
def execUnitRelease (r : Req) (s : State) : Host.Outcome State Fault Refusal := done (reqCmd s r 0x0104)

/-- UNIT_FENCE (R28). -/
def execUnitFence (r : Req) (s : State) : Host.Outcome State Fault Refusal := done (reqCmd s r 0x0105)

/-- SEQ_POWER_ON (R183). -/
def execSeqPowerOn (r : Req) (s : State) : Host.Outcome State Fault Refusal := done (reqCmd s r 0x0301)

/-- SEQ_SHUTDOWN (R183). -/
def execSeqShutdown (r : Req) (s : State) : Host.Outcome State Fault Refusal := done (reqCmd s r 0x0302)

/-- SEQ_COLD_STOP (R183). -/
def execSeqColdStop (r : Req) (s : State) : Host.Outcome State Fault Refusal := done (reqCmd s r 0x0303)

/-- FLT_INJECT (R262). -/
def execFltInject (r : Req) (s : State) : Host.Outcome State Fault Refusal := done (reqCmd s r 0x0401)

/-- FLT_STORE_ERASE (R262). -/
def execFltStoreErase (r : Req) (s : State) : Host.Outcome State Fault Refusal := done (reqCmd s r 0x0402)

/-- COMMIT (R298). -/
def execCommit (r : Req) (s : State) : Host.Outcome State Fault Refusal := done (reqCmd s r 0x0201)

/-- ABORT (R298). -/
def execAbort (r : Req) (s : State) : Host.Outcome State Fault Refusal := done (reqCmd s r 0x0202)

/-- DRAUGHT_READ (R298). -/
def execDraughtRead (r : Req) (s : State) : Host.Outcome State Fault Refusal := done (reqCmd s r 0x0203)

/-- LOG_WRITE (R298). -/
def execLogWrite (r : Req) (s : State) : Host.Outcome State Fault Refusal := done (reqCmd s r 0x0204)

/-- TAP_OPEN (R389). -/
def execTapOpen (r : Req) (s : State) : Host.Outcome State Fault Refusal := done (reqCmd s r 0x0501)

/-- TAP_CLOSE (R395). -/
def execTapClose (r : Req) (s : State) : Host.Outcome State Fault Refusal := done (reqCmd s r 0x0502)

/-- TAP_INFO (R392). -/
def execTapInfo (r : Req) (s : State) : Host.Outcome State Fault Refusal := done (reqCmd s r 0x0503)

/-- RING_RD (R451). -/
def execRingRd (r : Req) (s : State) : Host.Outcome State Fault Refusal := done (reqCmd s r 0x0601)

/-- RING_WR (R451). -/
def execRingWr (r : Req) (s : State) : Host.Outcome State Fault Refusal := done (reqCmd s r 0x0602)

/-- RING_CMD (R451). -/
def execRingCmd (r : Req) (s : State) : Host.Outcome State Fault Refusal := done (reqCmd s r 0x0603)

/-- RING_TSET (R441). -/
def execRingTset (r : Req) (s : State) : Host.Outcome State Fault Refusal := done (reqCmd s r 0x0604)

/-- FLR_RD (R497). -/
def execFlrRd (r : Req) (s : State) : Host.Outcome State Fault Refusal := done (reqCmd s r 0x0701)

/-- FLR_WR (R497). -/
def execFlrWr (r : Req) (s : State) : Host.Outcome State Fault Refusal := done (reqCmd s r 0x0702)

/-- FLR_CMD (R497). -/
def execFlrCmd (r : Req) (s : State) : Host.Outcome State Fault Refusal := done (reqCmd s r 0x0703)

/-- CHG_RESTART (R529). -/
def execChgRestart (r : Req) (s : State) : Host.Outcome State Fault Refusal := done (reqCmd s r 0x0801)

/-- KILN (R622). -/
def execKiln (r : Req) (s : State) : Host.Outcome State Fault Refusal := done (reqCmd s r 0x0901)

/-- OTP_MREAD (R622). -/
def execOtpMread (r : Req) (s : State) : Host.Outcome State Fault Refusal := done (reqCmd s r 0x0902)

/-- OTP_SCAN (R622). -/
def execOtpScan (r : Req) (s : State) : Host.Outcome State Fault Refusal := done (reqCmd s r 0x0903)

/-- PROOF_RUN (R632). -/
def execProofRun (r : Req) (s : State) : Host.Outcome State Fault Refusal := done (reqCmd s r 0x0A01)

/-- PROOF_ABORT (R632). -/
def execProofAbort (r : Req) (s : State) : Host.Outcome State Fault Refusal := done (reqCmd s r 0x0A02)

/-- TIME_SEED (R615). -/
def execTimeSeed (r : Req) (s : State) : Host.Outcome State Fault Refusal := done (reqCmd s r 0x0B01)

-- engines and remote requests

/-- LD (R320). -/
def execLd (e : Fin 4) (d r k : BitVec 4) (s : State) : Host.Outcome State Fault Refusal := done (engLd e.val d r k s)

/-- ST (R320). -/
def execSt (e : Fin 4) (d r k : BitVec 4) (s : State) : Host.Outcome State Fault Refusal := done (engSt e.val d r k s)

/-- RING_REQUEST_RX (R455). -/
def execRingRequestRx (s : State) : Host.Outcome State Fault Refusal := done (ringRequestDo s)

/-- FRAME_RX (R474). -/
def execFrameRx (slot : Byte) (err : Int) (f : List FloorChar) (s : State) : Host.Outcome State Fault Refusal :=
  done (frameRxDo s slot err f)

end Sys2Proof.Machine
end

