-- ==== Sys2Proof/Machine/Buses.lean ====
section
/-! DEFINITION. The SPI host's direct transfers, the SPI target, the I2C ports, the UART and its console (15_spi_ports.md;
16_i2c_and_uart.md). -/

namespace Sys2Proof.Machine

open Sys2Proof

/-- Byte i of a block of data registers: byte 2j is bits [7:0] of word j, byte 2j + 1 bits [15:8] (R542, R569). -/
def putByte (s : State) (base i : Nat) (b : Byte) : State :=
  let a := base + i / 2
  let w := s.reg a
  s.setReg a (if i % 2 = 0 then (w &&& 0xFF00) ||| b.setWidth 16 else (w &&& 0x00FF) ||| (b.setWidth 16 <<< 8))

/-- Bytes from byte i on. -/
def putBytes (s : State) (base i : Nat) : List Byte → State
  | [] => s
  | b :: bs => putBytes (putByte s base i b) base (i + 1) bs

-- the SPI host

/-- XDONE (R541, R542): the bytes received are stored, and a byte other than 0xFF shows that there is a memory. -/
def xdoneDo (s : State) (rx : List Byte) : State :=
  if !xBusy s then s
  else
    let c := s.reg 0x5013
    let rx := if bit c 8 || bit c 9 then [] else rx.take (field c 15 10 + 1)
    let clear : Word := if rx.any (· != 0xFF) then 9 else 8
    (putBytes (s.setReg 0x5000 (s.reg 0x5000 &&& ~~~clear)) 0x5020 0 rx).orReg 0x5008 2

-- the SPI target

/-- A host frame from the levels that the port samples on the rising edges of SPT_SCK, the most significant bit first
(R545). -/
def sptFrameOf (sdi : List Bool) : BitVec 32 := BitVec.ofNat 32 (ofBits sdi.reverse)

/-- The port answers (R83): its block is not in reset. -/
def sptOn (s : State) : Bool := servesAccesses s && portUp s .spt

/-- A frame that the port sends (R548, R549). -/
def sptOut (s : State) (data : Word) (under hold : Bool) : State :=
  let x := s.spt
  let ended := x.idx == x.count && x.count != 0
  let idx : Nat := if ended && x.count == 16 then (Config.freeIdx s.fresh).toNat else x.idx
  let flags := flag under 7 + flag hold 6 + flag x.werr 5 + flag ended 4 + idx
  let body := data.toNat * 256 + flags
  let crc : Nat := if x.crcOn then (crc8 24 body).toNat else 0
  { s.tick with spt := { x with word := false, prev := data, out := BitVec.ofNat 32 (body * 256 + crc) } }

/-- The CRC of a host frame is right, or not in force (R549). -/
def sptCrcOk (s : State) (frame : BitVec 32) : Bool :=
  !s.spt.crcOn || crc8 24 (frame >>> 8).toNat == frame.setWidth 8

/-- A host frame whose CRC fails (R549): the transaction's later frames are ignored. -/
def sptCrcErr (s : State) : State :=
  ({ s with spt := { s.spt with op := 3 } }.orReg 0x5102 2).occur 6 0x14 0

/-- SPT_CS_FALL (R548, R550): frame 0 shows the last-error register. -/
def sptFall (s : State) (mode3 : Bool) : State :=
  if !sptOn s || s.spt.active then s
  else
    let c := s.reg 0x5101
    let x : Spt := { active := true, mode3 := mode3, crcOn := bit c 0, zeroFill := bit c 1, late := s.spt.late }
    sptOut { s with spt := x } (s.req .spt).lasterr false false

/-- A command frame (R546, R551, R553). -/
def sptCmd (s : State) (frame : BitVec 32) : State :=
  if !sptOn s || !s.spt.active || s.spt.op ≠ 0 then s
  else if !sptCrcOk s frame then sptCrcErr s
  else
    let f := frame.toNat
    let op := f / 2 ^ 28
    let x := { s.spt with count := f / 2 ^ 24 % 16 + 1, addr := BitVec.ofNat 16 (f / 256) }
    if op = 1 then { s with spt := { x with op := 1 } }
    else if op = 2 then { s with spt := { x with op := 2, asked := true } }
    else recordErr { s with spt := { s.spt with op := 3 } } .spt eUnknown

/-- SPT_READ_FRAME (R551): the start of a frame after frame 0. -/
def sptReadFrame (s : State) : State :=
  let x := s.spt
  if !sptOn s || !x.active || x.op = 0 || x.op = 1 then s
  else if x.op = 3 || x.idx = x.count then sptOut s 0 false false
  else match x.ready with
  | w :: ws =>
    let s := sptOut s w false false
    { s with spt := { s.spt with ready := ws, idx := x.idx + 1, word := true } }
  | [] =>
    ((sptOut s (if x.zeroFill then 0 else x.prev) true false).orReg 0x5102 1).setReg 0x5104
      (wd (satInc (s.reg 0x5104).toNat 0xFFFF))

/-- SPT_WORD_READ (R551, R555): the read that is next in turn is performed; that of an ended transaction is discarded. Nothing
overtakes what earlier transactions left (R17). -/
def sptWordRead (s : State) : State :=
  let x := s.spt
  match x.late with
  | (a, none) :: ps => (busRead { s with spt := { x with late := ps } } .spt a.toNat).1
  | (_, some _) :: _ => s
  | [] =>
    if !x.active || x.op ≠ 2 || !x.asked then s
    else
      let y := busRead s .spt ((x.addr.toNat + x.done) % 65536)
      let z := y.1.spt
      { y.1 with spt := { z with ready := z.ready ++ [y.2.2], done := x.done + 1, asked := x.done + 1 < x.count } }

/-- SPT_WRITE_FRAME (R547, R549, R553): the frame sent, and the word received with it. -/
def sptWriteFrame (s : State) (frame : BitVec 32) : State :=
  let x := s.spt
  if !sptOn s || !x.active || x.op = 0 || x.op = 2 then s
  else if x.op = 3 then sptOut s 0 false false
  else
    let ended := x.idx == x.count
    let hold := !ended && 2 ≤ x.held.length
    let s := sptOut s 0 false hold
    if !sptCrcOk s frame then sptCrcErr s
    else if hold || ended then s
    else
      let w : Word := (frame >>> 16).setWidth 16
      { s with spt := { s.spt with held := x.held ++ [(x.addr + wd x.idx, w)], idx := x.idx + 1 } }

/-- A taken word is applied; a rejected one sets SPT_EVT.WERR, and WERR in the later frames of its own transaction
(R554). -/
def sptApply (s : State) (p : Word × Word) (mine : Bool) : State :=
  let y := busWrite s .spt p.1.toNat p.2
  if y.2 = eOk then y.1
  else
    let s := y.1.orReg 0x5102 8
    if mine then { s with spt := { s.spt with werr := true } } else s

/-- SPT_WORD_APPLIED (R553, R554, R555): the word that is next in turn is applied (R17). -/
def sptWordApplied (s : State) : State :=
  let x := s.spt
  match x.late, x.held with
  | (a, some w) :: ps, _ => sptApply { s with spt := { x with late := ps } } (a, w) false
  | (_, none) :: _, _ => s
  | [], p :: ps => sptApply { s with spt := { x with held := ps } } p true
  | [], [] => s

/-- SPT_CS_RISE (R555), inside a frame or after one: a read that was asked for and words that were taken are still performed. A
word in the partial frame has not been delivered. -/
def sptRise (s : State) (inside : Bool) : State :=
  let x := s.spt
  if !x.active then s
  else
    let y : Spt := { active := false, mode3 := x.mode3, crcOn := x.crcOn, zeroFill := x.zeroFill
                     late := x.late ++ x.held.map (fun p => (p.1, some p.2)) ++ if x.asked then [(x.addr + wd x.done, none)] else []
                     prev := x.prev, out := x.out }
    let s := { s with spt := y }
    if x.idx < x.count ∨ (inside ∧ x.word) then s.orReg 0x5102 4 else s

-- I2C-A as target

/-- I2C-A answers its address (R83, R563). -/
def i2caOn (s : State) : Bool := servesAccesses s && portUp s .i2ca

/-- I2CA_POINTER_SET (R563): a START, an address with W and two bytes. The port answers its own address alone; after another
one the bus is busy with a transaction that is not its own. -/
def i2caPointer (s : State) (addr : BitVec 7) (ptr : Word) : State :=
  let mine := i2caOn s && addr == s.i2ca.addr
  let t := { s with i2ca := { s.i2ca with busy := true, mine := mine, wr := mine, nacked := false } }
  if mine then t.setReg 0x5207 ptr else t

/-- The transaction on the bus of I2C-A is one that its host makes with it. -/
def i2caServes (s : State) : Bool := i2caOn s && s.i2ca.busy && s.i2ca.mine

/-- I2CA_WORD_WRITE (R564): one write at the pointer, which then increases whatever its outcome. -/
def i2caWrite (s : State) (v : Word) : State :=
  if !i2caServes s || !s.i2ca.wr then s
  else
    let ptr := s.reg 0x5207
    let y := busWrite (s.setReg 0x5207 (ptr + 1)) .i2ca ptr.toNat v
    if y.2 = eOk then y.1 else y.1.orReg 0x520C 0x10

/-- I2CA_WORD_READ (R566, R567), after a repeated START and the address with R: one read at the pointer, which then increases,
and the word sent, 0x0000 where the read is rejected. A NACK of its low byte ends the read: no further word is read before the
next START. -/
def i2caRead (s : State) (acked : Bool) : State :=
  if !i2caServes s || s.i2ca.nacked then s
  else
    let ptr := s.reg 0x5207
    let x := busRead s .i2ca ptr.toNat
    let t := x.1.setReg 0x5207 (ptr + 1)
    { t with i2ca := { t.i2ca with wr := false, nacked := !acked, sent := if x.2.1 = eOk then x.2.2 else 0 } }

/-- I2CA_STOP_CONDITION (R565): a STOP or repeated START; an odd byte written to the port before it is discarded. -/
def i2caStop (s : State) (odd stop : Bool) : State :=
  if !s.i2ca.busy then s
  else
    let t := { s with i2ca := { s.i2ca with busy := !stop, mine := s.i2ca.mine && !stop, wr := false, nacked := false } }
    if i2caServes s && s.i2ca.wr && odd then t.orReg 0x520C 0x20 else t

-- controller transfers

/-- The transfer of port p that is on the bus, a bus recovery or not: it has been asked for, and on I2C-A no other controller's
transaction keeps it waiting for bus-free (R570). On I2C-B the bus is free again by the event itself: no command shows a
transaction there ending (DESIGN CHOICE, log entry 65). -/
def i2cRuns (s : State) (p : I2cPort) (recov : Bool) : Option I2cXfer :=
  let x := getI2c s p
  match x.xfer with
  | some f => if x.mbusy && f.recov == recov && (p == .b || !x.busy) then some f else none
  | none => none

/-- MDONE (R569, R572): bytes read go to I2Cx_MDATA from byte 0; all RLEN of them, or the transfer is not DONE, and NBYTES
counts them, or the bytes written where it reads none. An address that is not acknowledged gives E_UNREACHABLE to the
requester of the transfer; it is the first one, or, after all bytes written, that of the read. -/
def mdoneDo (s : State) (p : I2cPort) (how : I2cEnd) (nbytes : Nat) (rx : List Byte) : State :=
  match i2cRuns s p false with
  | none => s
  | some f => match how with
    | .done =>
      if rx.length = f.rd then
        i2cEnds (putBytes s (i2cAddr p 0x10) 0 rx) p 1 (if f.rd = 0 then f.wr.length else f.rd) 0
      else s
    | .nackAddr => i2cEnds (recordErr s f.by_ eUnreach) p 2 (if f.rd ≠ 0 ∧ nbytes = f.wr.length then nbytes else 0) 0
    | .nackData => if nbytes < f.wr.length then i2cEnds s p 3 nbytes 0 else s

/-- RECOV (R573): SDA reads low `lows` times in a row. While it does, up to nine SCL pulses leave; then a STOP, and DONE where
SDA is high by then, BUSFAULT otherwise. -/
def recovDo (s : State) (lows : Nat) : State :=
  match i2cRuns s .b true with
  | none => s
  | some f =>
    i2cEnds (setI2c s .b { s.i2cb with xfer := some { f with pulses := min lows 9 } }) .b (if lows ≤ 9 then 1 else 6) 0 0

/-- ARBLOST (R571): the winner's transaction has the bus from here on; the command that sets its pointer shows whether it
addresses I2C-A. -/
def arblostDo (s : State) (p : I2cPort) (nbytes : Nat) : State :=
  match i2cRuns s p false with
  | none => s
  | some f =>
    i2cEnds (setI2c s p { getI2c s p with busy := true, mine := false, wr := false }) p 4 (xferBytes f nbytes) 2

/-- I2C_LINE_TIMEOUT (R574): the condition becomes present, the transaction is abandoned, and a transfer ends with
TIMEOUT, with no byte where it was still waiting for the bus. A time of 0 disables the check. -/
def lineTimeout (s : State) (p : I2cPort) (sda : Bool) (nbytes : Nat) : State :=
  let x := getI2c s p
  let tmo := (x.live.getD 4 0)
  let off := if sda then field tmo 15 8 = 0 else field tmo 7 0 = 0
  if !servesAccesses s || off || (if sda then x.sda else x.scl) then s
  else
    let t := setI2c s p { x with busy := false, mine := false, wr := false, scl := x.scl || !sda, sda := x.sda || sda }
    let src := (if p = .a then 0x10 else 0x12) + (if sda then 1 else 0)
    let t := (t.orReg (i2cAddr p 0xC) (if sda then 8 else 4)).condOn 6 src 0
    let n := match i2cRuns s p false with
      | some f => xferBytes f nbytes
      | none => 0
    if x.mbusy then i2cEnds t p 5 n 0 else t

/-- I2C_CFG_APPLY (R562): committed settings take effect at a bus-free condition after a STOP, which is not there while a transfer
of the port runs; for one that has waited for it, before its START (R570). -/
def i2cApply (s : State) (p : I2cPort) : State :=
  let x := { getI2c s p with busy := p == I2cPort.a && (getI2c s p).busy }
  if x.busy || (x.mbusy && !x.waits) then s
  else setI2c s p { x with waits := false, live := [1, 2, 3, 4, 5].map fun o => s.reg (i2cAddr p o), addr := (s.reg (i2cAddr p 6)).setWidth 7 }

-- the UART

/-- The UART receives and sends. -/
def uartOn (s : State) : Bool := servesAccesses s && portUp s .uart

/-- The flags of a received character (R578). -/
def uartFlags (s : State) (c : UartChar) : State :=
  s.orReg 0x5406 (wd (flag true 0 + flag c.fe 2 + flag c.pe 3 + flag c.brk 4))

/-- A character completes (R578): with sixteen entries it replaces the newest. The rule names no mode: the FIFO takes the
characters of console mode too (DEDUCED, log entry 65). -/
def uartStore (s : State) (c : UartChar) : State :=
  let s := uartFlags s c
  if s.uart.rx.length < 16 then { s with uart := { s.uart with rx := s.uart.rx ++ [c] } }
  else { s with uart := { s.uart with rx := s.uart.rx.take 15 ++ [c] } }.orReg 0x5406 2

/-- The length of a console request whose first four bytes are here (R581). -/
def reqLength (p : List Byte) : Nat := if p.getD 2 0 = 1 then 8 else 8 + 2 * (p.getD 3 0).toNat

/-- A little-endian word of a frame. -/
def frameWord (p : List Byte) (i : Nat) : Word := wd ((p.getD i 0).toNat + 256 * (p.getD (i + 1) 0).toNat)

/-- A console response (R581). -/
def consoleResponse (seq : Byte) (status : Word) (done : Nat) (ws : List Word) : List Byte :=
  let body : List Byte := [seq] ++ wordBytes [status] ++ [BitVec.ofNat 8 done] ++ wordBytes ws
  let c := crc16 body
  ([0x5A] : List Byte) ++ body ++ [(c >>> 8).setWidth 8, c.setWidth 8]

/-- A response is sent, and kept with the SEQ of its request (R584). -/
def consoleSend (s : State) (seq : Byte) (resp : List Byte) : State :=
  { s with uart := { s.uart with seq := seq, kept := resp, resp := resp, left := resp.length } }

/-- A whole request whose CRC is right is executed (R583, R584). -/
def consoleRun (s : State) (p : List Byte) : State :=
  let seq := p.getD 1 0
  if seq ≠ 0 ∧ seq = s.uart.seq ∧ s.uart.kept ≠ [] then
    { s with uart := { s.uart with resp := s.uart.kept, left := s.uart.kept.length } }
  else
    let n := (p.getD 3 0).toNat
    let a := (frameWord p 4).toNat
    if p.getD 2 0 = 1 then
      let x := readWords s .uart a n
      consoleSend x.1 seq (consoleResponse seq x.2.1 x.2.2.length x.2.2)
    else
      let x := writeWords s .uart a ((List.range n).map fun i => frameWord p (6 + 2 * i))
      if servesAccesses x.1 then consoleSend x.1 seq (consoleResponse seq x.2.1 x.2.2 []) else x.1

/-- The characters of a request received so far. -/
def setPart (s : State) (p : List Byte) : State := { s with uart := { s.uart with part := p } }

/-- A request is discarded (R582). -/
def consoleDrop (s : State) : State := (setPart s []).orReg 0x5406 0x40

/-- One character for the console decoder (R581, R582). -/
def consoleChar (s : State) (c : UartChar) : State :=
  if c.brk then setPart s []
  else if s.uart.part.isEmpty ∧ c.data ≠ 0xA5 then s
  else if c.fe || c.pe then consoleDrop s
  else
    let p := s.uart.part ++ [c.data]
    let n := (p.getD 3 0).toNat
    if p.length = 4 ∧ (¬(p.getD 2 0 = 1 ∨ p.getD 2 0 = 2) ∨ n = 0 ∨ 16 < n) then consoleDrop s
    else if p.length < 4 ∨ p.length < reqLength p then setPart s p
    else
      let body := p.drop 1
      let want := crc16 (body.take (body.length - 2))
      let have_ := wd (256 * (p.getD (p.length - 2) 0).toNat + (p.getD (p.length - 1) 0).toNat)
      if want ≠ have_ then consoleDrop s else consoleRun (setPart s []) p

/-- A character completes: it is stored, and in console mode decoded. -/
def uartChar (s : State) (c : UartChar) : State :=
  if !uartOn s then s else if uartRaw s then uartStore s c else consoleChar (uartStore s c) c

/-- Parity bit of a byte under the settings in effect, where there is one (R577; UART_CFG.PAR: 1 even, 2 odd). -/
def uartParity (cfg : Word) (b : Byte) : List Bool :=
  let even := (lowBits 8 b.toNat).foldl xor false
  match field cfg 3 2 with
  | 1 => [even]
  | 2 => [!even]
  | _ => []

/-- The majority of the three samples at the middle of a bit (R576). -/
def majority (x : Bool × Bool × Bool) : Bool := (x.1 && x.2.1) || (x.1 && x.2.2) || (x.2.1 && x.2.2)

/-- A character from the bits after its start bit, as the receiver samples them (R577, R578): eight data bits from the lowest,
the parity bit where there is one, one or two stop bits. With two stop bits, FE is a 0 in either (DESIGN CHOICE, log
entry 51). -/
def uartCharOf (cfg : Word) (bits : List Bool) : UartChar :=
  let b : Byte := BitVec.ofNat 8 (ofBits (bits.take 8))
  let par := uartParity cfg b
  let stops := (bits.drop (8 + par.length)).take (if bit cfg 4 then 2 else 1)
  { data := b, fe := stops.any (!·), pe := (bits.drop 8).take par.length != par, brk := bits.all (!·) }

/-- The bits of a character that is sent, the start bit first (R577). -/
def uartBits (cfg : Word) (b : Byte) : List Bool :=
  [false] ++ lowBits 8 b.toNat ++ uartParity cfg b ++ (if bit cfg 4 then [true, true] else [true])

/-- The cycles of island 8 that bit k of a character lasts (R576). -/
def uartBitTime (divi frac k : Nat) : Nat := divi + (k + 1) * frac / 16 - k * frac / 16

/-- The characters of a console request, one after another. -/
def consoleFrame (s : State) (frame : List Byte) : State :=
  frame.foldl (fun s b => uartChar s { data := b, fe := false, pe := false, brk := false }) s

/-- UART_CHAR_TX (R576, R579): a character of a console response has left, or of the FIFO, of which the next one starts, or
which has emptied. -/
def uartSent (s : State) : State :=
  if 0 < s.uart.left then { s with uart := { s.uart with left := s.uart.left - 1 } }
  else match s.uart.tx with
  | [] => s
  | _ :: cs =>
    let s := { s with uart := { s.uart with tx := cs, sending := !cs.isEmpty } }
    if cs.isEmpty then s.orReg 0x5406 0x20 else s

/-- UART_CFG_APPLY (R580): no character is being sent, and none is being received between two of these commands. What the
console decoder has of a request is dropped with the FIFOs (DESIGN CHOICE, log entry 65). -/
def uartApply (s : State) : State :=
  if s.uart.sending || s.uart.left ≠ 0 || (s.uart.cfg = s.reg 0x5401 ∧ s.uart.div = s.reg 0x5402) then s
  else { s with uart := { s.uart with cfg := s.reg 0x5401, div := s.reg 0x5402, rx := [], tx := [], part := [] } }

/-- CTO (R582). -/
def ctoDo (s : State) : State := if s.uart.part.isEmpty then s else (setPart s []).orReg 0x5406 0x80

-- the events of these chapters

/-- XDONE (R542). -/
def execXdone (rx : List Byte) (s : State) : Host.Outcome State Fault Refusal := done (xdoneDo s rx)

/-- SPT_CS_FALL (R550). -/
def execSptCsFall (mode3 : Bool) (s : State) : Host.Outcome State Fault Refusal := done (sptFall s mode3)

/-- SPT_READ_CMD (R551): the frame's own OP says what it commands. -/
def execSptReadCmd (sdi : List Bool) (s : State) : Host.Outcome State Fault Refusal := done (sptCmd s (sptFrameOf sdi))

/-- SPT_WRITE_CMD (R553). -/
def execSptWriteCmd (sdi : List Bool) (s : State) : Host.Outcome State Fault Refusal := done (sptCmd s (sptFrameOf sdi))

/-- SPT_READ_FRAME (R551). -/
def execSptReadFrame (s : State) : Host.Outcome State Fault Refusal := done (sptReadFrame s)

/-- SPT_WORD_READ (R551). -/
def execSptWordRead (s : State) : Host.Outcome State Fault Refusal := done (sptWordRead s)

/-- SPT_WRITE_FRAME (R553). -/
def execSptWriteFrame (sdi : List Bool) (s : State) : Host.Outcome State Fault Refusal :=
  done (sptWriteFrame s (sptFrameOf sdi))

/-- SPT_WORD_APPLIED (R554). -/
def execSptWordApplied (s : State) : Host.Outcome State Fault Refusal := done (sptWordApplied s)

/-- SPT_CS_RISE (R555). -/
def execSptCsRise (inside : Bool) (s : State) : Host.Outcome State Fault Refusal := done (sptRise s inside)

/-- I2CA_POINTER_SET (R563). -/
def execI2caPointerSet (addr : BitVec 7) (ptr : Word) (s : State) : Host.Outcome State Fault Refusal :=
  done (i2caPointer s addr ptr)

/-- I2CA_WORD_WRITE (R564). -/
def execI2caWordWrite (val : Word) (s : State) : Host.Outcome State Fault Refusal := done (i2caWrite s val)

/-- I2CA_WORD_READ (R566). -/
def execI2caWordRead (acked : Bool) (s : State) : Host.Outcome State Fault Refusal := done (i2caRead s acked)

/-- I2CA_STOP_CONDITION (R565). -/
def execI2caStopCondition (odd stop : Bool) (s : State) : Host.Outcome State Fault Refusal := done (i2caStop s odd stop)

/-- MDONE (R572). -/
def execMdone (p : I2cPort) (how : I2cEnd) (nbytes : Fin 32) (rx : List Byte) (s : State) :
    Host.Outcome State Fault Refusal := done (mdoneDo s p how nbytes.val rx)

/-- RECOV (R573). -/
def execRecov (lows : Nat) (s : State) : Host.Outcome State Fault Refusal := done (recovDo s lows)

/-- ARBLOST (R571). -/
def execArblost (p : I2cPort) (nbytes : Fin 32) (s : State) : Host.Outcome State Fault Refusal :=
  done (arblostDo s p nbytes.val)

/-- I2C_LINE_TIMEOUT (R574). -/
def execI2cLineTimeout (p : I2cPort) (sda : Bool) (nbytes : Fin 32) (s : State) : Host.Outcome State Fault Refusal :=
  done (lineTimeout s p sda nbytes.val)

/-- I2C_CFG_APPLY (R562). -/
def execI2cCfgApply (p : I2cPort) (s : State) : Host.Outcome State Fault Refusal := done (i2cApply s p)

/-- UART_CHAR_RX (R576, R578). -/
def execUartCharRx (samples : List (Bool × Bool × Bool)) (s : State) : Host.Outcome State Fault Refusal :=
  done (uartChar s (uartCharOf s.uart.cfg (samples.map majority)))

/-- UART_CHAR_TX (R576). -/
def execUartCharTx (s : State) : Host.Outcome State Fault Refusal := done (uartSent s)

/-- UART_CFG_APPLY (R580). -/
def execUartCfgApply (s : State) : Host.Outcome State Fault Refusal := done (uartApply s)

/-- CONSOLE_READ (R583): the characters of the request. -/
def execConsoleRead (frame : List Byte) (s : State) : Host.Outcome State Fault Refusal := done (consoleFrame s frame)

/-- CONSOLE_WRITE (R583). -/
def execConsoleWrite (frame : List Byte) (s : State) : Host.Outcome State Fault Refusal := done (consoleFrame s frame)

/-- CTO (R582). -/
def execCto (s : State) : Host.Outcome State Fault Refusal := done (ctoDo s)

end Sys2Proof.Machine
end

