-- ==== Sys2Proof/Machine/Pins.lean ====
section
/-! DEFINITION. What the block shows at its balls, as views of State: the outputs of the rails and LDOs, the shared lines, the
ports, the charger's switches, and the boundary register's order. The ball map is R58 (02_balls_and_supplies.md). -/

namespace Sys2Proof.Machine

open Sys2Proof

-- rails and LDOs (04_rails.md)

/-- SWnn_EN is high: the rail, or the leader of its gang, is in a state that drives its outputs (R119, R131, R143). TESTMODE and
the time before the power-on table leave every rail OFF (R61, R82). -/
def swEn (s : State) (n : Nat) : Bool := within (s.unit (leaderOf s n)).code.toNat 2 6

/-- SWnn_PWM switches: not in a hush (R143), nor before the start check has passed (R148). Otherwise it is high-impedance. -/
def swPwm (s : State) (n : Nat) : Bool :=
  let l := leaderOf s n
  swEn s n && !(s.rail l).hushed && ((s.unit l).code != 2 || (s.rail l).checked)

/-- A PWM pulse of controller n may be high: the current limit has not ended it in this period (R149). -/
def swPulse (s : State) (n : Nat) : Bool := swPwm s n && (s.rail n).ilim == 0

/-- The switching island cycle, counted from the origin of R128, at which period k of controller n begins. -/
def periodStart (s : State) (n k : Nat) : Nat := k * (s.rail n).per.toNat + (s.rail n).phase.toNat

/-- The length of a switching period, in ns (R126). -/
def periodNs (s : State) (n : Nat) : Nat := 5 * (s.rail n).per.toNat

/-- Active discharge of switching rail n is applied (R189); in a gang the leader's register and state govern it (R131). -/
def swDischarges (s : State) (n : Nat) : Bool :=
  (s.rail (leaderOf s n)).disch && bit (s.reg (swAddr (leaderOf s n) 1)) 5

/-- The pass device of LDO n is on. -/
def ldPass (s : State) (n : Nat) : Bool := within (s.unit (uLd n)).code.toNat 2 6

/-- The 100 Ω pull-down holds LDn_OUT (R160). -/
def ldPulled (s : State) (n : Nat) : Bool := (s.ldo n).disch && bit (s.reg (0x1401 + 0x20 * n)) 1

/-- LDn_PG is released: the output is in its window; otherwise it is driven low (R157). -/
def ldPgReleased (s : State) (n : Nat) : Bool := (s.ldo n).pg

-- shared open-drain lines (02_balls_and_supplies.md)

/-- STOP_N and ERR_N are driven low by this device; it never drives them high, and with VDD_AON absent it leaves them released
(R74, R75). -/
def stopDriven (s : State) : Bool := s.boot.phase != .supply && s.stopN.drv
def errDriven (s : State) : Bool := s.boot.phase != .supply && s.errN.drv

/-- LCPn_ALERT_N, HOST_IRQA_N and HOST_IRQB_N driven low (R219, R228, R359). -/
def alertDriven (s : State) (p : Nat) : Bool := lcpAlert s p
def irqADriven (s : State) : Bool := hostLineLow s 4
def irqBDriven (s : State) : Bool := hostLineLow s 5

-- load command ports (06_load_command_ports.md)

/-- The level of LCPn_DAT: a pull-up holds it high while no one drives it (R202). -/
def lcpLevel (d : Option Bool) : Bool := d.getD true

-- SPI (15_spi_ports.md)

/-- The weak pull-ups on SPH_IO0 to SPH_IO3: on whenever the SPI host is not OFF (R91, R537), so from the end of OTP sensing
(R557). -/
def sphPulled (s : State) : Bool := (s.unit uSph).code != 0

/-- What the SPI host drives on SPH_IO0 to SPH_IO3 in one SPH_SCK cycle; `none` where it does not drive the ball. -/
abbrev SphDrive := List (Option Bool)

/-- One bit on SPH_IO0, nothing on the others. -/
def onIo0 (b : Bool) : SphDrive := [some b, none, none, none]

/-- The eight bits of a byte, the highest first. -/
def highBits (b : Byte) : List Bool := (List.range 8).map fun i => b.getLsbD (7 - i)

/-- A byte of the data phase that the host sends on 1, 2 or 4 lines: the highest bits first, the highest of a cycle on the
highest line. -/
def dataCycles (lines : Nat) (b : Byte) : List SphDrive :=
  (List.range (8 / lines)).map fun c => (List.range 4).map fun l =>
    if l < lines then some (b.getLsbD (8 - lines * (c + 1) + l)) else none

/-- The cycles of a command, one element to each cycle of SPH_SCK: the opcode and the address on one line, nothing driven during
mode-clock and dummy cycles and while data are read (R537, R542). -/
def sphCycles (x : SphCmd) : List SphDrive :=
  let lines := max 1 x.lines
  let addr : List Byte := (List.range x.addrBytes).map fun i =>
    BitVec.ofNat 8 (x.addr.getD 0 / 256 ^ (x.addrBytes - 1 - i))
  (x.op :: addr).flatMap (fun b => (highBits b).map onIo0) ++
    List.replicate (x.dummy + x.rd * 8 / lines) [none, none, none, none] ++ x.wr.flatMap (dataCycles lines)

/-- The level of SPH_IOl in a cycle: what the host drives, or the pull-up where the memory drives nothing (R91, R537). -/
def sphLevel (s : State) (d : SphDrive) (l : Nat) : Option Bool :=
  match d.getD l none with
  | some b => some b
  | none => if sphPulled s then some true else none

/-- SPH_SCK: 100 MHz / DIV (15_spi_ports.md, "How the SPI ports work"): a cycle in ns. -/
def sphCycleNs (x : SphCmd) : Nat := 10 * x.div

/-- SPT_SDO is driven: SPT_CS_N is low and the port is open; otherwise, and before the load phase, it is high-impedance (R83,
R545). -/
def sdoDriven (s : State) : Bool := sptOn s && s.spt.active

/-- The levels of SPT_SDO in a frame of 32 SPT_SCK cycles, the most significant bit first (R545). -/
def sptSdo (s : State) : List Bool := bitsOf 32 s.spt.out.toNat

-- floor bus (13_floor_bus.md)

/-- FLR_RE_N is low: the floor port is not OFF (R467). -/
def floorReceives (s : State) : Bool := (s.unit uFloor).code != 0

/-- FLR_DE and FLR_TXD while the port's last transmission leaves, with the time of each level (R467, R488). -/
def floorLine (s : State) : List (Bool × Bool × Nat) :=
  match s.floor.out with
  | some x => floorWave x
  | none => []

-- I2C and the UART (16_i2c_and_uart.md)

/-- I2CB_RST_N is driven high: not before a commit has set I2CB_CFG.EN since chip reset (R575). -/
def i2cbRunning (s : State) : Bool := !rstOut s

/-- The times that a port uses, in ns: the filter, SCL low, SCL high (which is also the START hold, repeated-START set-up and STOP
set-up time), bus free before a START, SDA data hold and set-up (R558 to R560). -/
structure I2cTimes where
  filter : Nat
  sclLow : Nat
  sclHigh : Nat
  busFree : Nat
  dataHold : Nat
  dataSetup : Nat
  deriving DecidableEq, Repr

/-- The times of a port with the settings in effect (R562). -/
def i2cTimes (x : I2c) : I2cTimes :=
  let w (i : Nat) : Word := x.live.getD i 0
  { filter := 10 * field (w 0) 12 8, sclLow := 10 * (w 2).toNat, sclHigh := 10 * (w 1).toNat, busFree := 10 * (w 2).toNat
    dataHold := 10 * field (w 3) 15 8, dataSetup := 10 * field (w 3) 7 0 }

/-- What a controller puts on its bus. -/
inductive I2cElem where
  | start
  | stop
  /-- a byte that it sends, the highest bit first -/
  | send (b : Byte)
  /-- a byte that it reads, with its own acknowledge or NACK after it -/
  | recv (acked : Bool)
  /-- one SCL pulse -/
  | pulse
  deriving DecidableEq, Repr

/-- What a transfer that completes puts on the bus (16_i2c_and_uart.md, "How the ports work"; R569, R573): a START, the address with W
and the bytes written, where bytes are read a repeated START and the address with R, a NACK of the last byte read alone, and a
STOP. A recovery is its SCL pulses and a STOP. -/
def i2cSequence (x : I2cXfer) : List I2cElem :=
  if x.recov then List.replicate x.pulses .pulse ++ [.stop]
  else
    let wr := [I2cElem.start, .send (x.addr ++ 0#1)] ++ x.wr.map .send
    let rd := if x.rd = 0 then []
      else [I2cElem.start, .send (x.addr ++ 1#1)] ++ (List.range x.rd).map fun i => .recv (decide (i + 1 < x.rd))
    wr ++ rd ++ [.stop]

/-- The bus permits the STOP of a transfer that ends with a result other than DONE (R572): not where another controller has won
it, nor while a line is held low. -/
def i2cStopSent (x : I2c) (result : Nat) : Bool := result != 4 && !x.scl && !x.sda

/-- The levels of UART_TXD for one character with the settings in effect, each with its time in cycles of 10 ns (R576, R577). -/
def uartWave (s : State) (b : Byte) : List (Bool × Nat) :=
  (uartBits s.uart.cfg b).zipIdx.map fun p => (p.1, uartBitTime s.uart.div.toNat (field s.uart.cfg 11 8) p.2)

/-- What UART_TXD sends now: the next character of a console response, or the FIFO's oldest; otherwise the line is high. -/
def uartSends (s : State) : List (Bool × Nat) :=
  let u := s.uart
  if 0 < u.left then uartWave s (u.resp.getD (u.resp.length - u.left) 0)
  else if u.sending then uartWave s (u.tx.headD 0)
  else []

-- timers (17_timers_and_rtc.md)

/-- TMRn_OUT / GPIOn is driven by this device, and its level (R598, R599). -/
def gpioDriven (s : State) (n : Nat) : Bool := bit (s.reg (tmrAddr n 1)) 7 || bit (s.reg 0x5880) n

-- charger and power path (14_charger_and_power_path.md)

/-- The gates of the input pair and of the battery MOSFET (R503, R504). -/
def inGateOn (s : State) : Bool := s.chg.ingate
def pathGateOn (s : State) : Bool := s.chg.pathOn

/-- The buck may switch: the input pair is on, the charger is in PRECHARGE, FAST, TOPOFF or MAINT, no VMAX end is being judged, and
no reversed battery holds it (R257, R505, R516). -/
def buckOn (s : State) : Bool :=
  s.chg.ingate && within (s.unit uChg).code.toNat 3 6 && s.chg.vmaxCheck == 0 && !s.chg.buckHold && !(s.unit uChg).fenced

/-- The charge current of the state that the charger is in, in units of 5 mA: half of it while DIE_WARN is present (R521). Where
CHG_VIN must be held up, or in a scan, it is reduced to what the monitor reads (R519, R520). -/
def chargeLimit (s : State) : Nat :=
  if !buckOn s then 0
  else
    let i := field (s.reg (match (s.unit uChg).code.toNat with
      | 3 => 0x1A03
      | 4 => 0x1A02
      | 5 => 0x1A04
      | _ => 0x1A05)) 8 0
    let top := if s.present 2 0 then i else 2 * i
    if s.chg.ilimVin || s.chg.scan then min top ((s.reg 0x1A19).toInt.toNat / 5) else top

-- boundary scan (19_proof.md)

/-- EXTEST drives the balls from the boundary register: it is the instruction and takes effect (R643, R644). -/
def extestActs (s : State) : Bool := s.jtag.ir == 0x0 && scanDrives s

/-- The bit of a cell in the boundary register; none where the ball has no such cell. -/
def cellBit (s : State) (b : Ball) (k : CellKind) : Option Bool :=
  (boundary.findIdx? (· == (b, k))).map fun i => s.jtag.cells.getD i false

/-- The level that EXTEST drives on a ball from the boundary register (R642, R643): the ball's data cell, where the control cell
after it, if there is one, is 1 (that 1 drives: DESIGN CHOICE, log entry 46), and of an open-drain ball the low level alone (R74).
None for an input, for SWnn_PWM and SWnn_EN, which keep their off levels, and while EXTEST does not act. -/
def extestBall (s : State) (b : Ball) : Option Bool :=
  if !extestActs s || cellBit s b .control = some false || (b.openDrain && cellBit s b .data = some true) then none
  else cellBit s b .data

/-- A ball is high-impedance under HIGHZ (R643); the outputs of the rails keep their off levels. -/
def highzActs (s : State) : Bool := s.jtag.ir == 0x2 && scanDrives s

/-- An open-drain ball that the device holds low. Released, it is at the level that others give it. -/
def pulledLow (low : Bool) : Option Bool := if low then some false else none

/-- The level of a ball as the state shows it, with no boundary scan in effect; none where no command reports it. -/
def ballSees (s : State) : Ball → Option Bool
  | .swEn n => some (swEn s n)
  | .ldPg n => pulledLow (!ldPgReleased s n)
  | .gpio n => some (ballLevel s n)
  | .ppsOut => some s.ring.pps
  | .stopN => some (!(stopDriven s || s.stopN.low))
  | .errN => some (!(errDriven s || s.errN.low))
  | .hostIrqA => pulledLow (irqADriven s)
  | .hostIrqB => pulledLow (irqBDriven s)
  | .lcpAlert p => pulledLow (alertDriven s p)
  | .flrRe => some (!floorReceives s)
  | .i2cbRst => some (i2cbRunning s)
  | .swFlt n => some (!(s.rail n).fltn)
  | _ => none

/-- What cell i of the boundary register captures (R641, R642): a data cell the level of its ball, which under EXTEST is the one
driven from the register. A level that the state does not show is a free value, and so is what a control cell captures, of which
no rule speaks (DESIGN CHOICE, log entry 46). -/
def cellCaptures (s : State) (i : Nat) (c : Cell) : Bool :=
  let sees := if c.2 = .control then none else extestBall s c.1 <|> if extestActs s && c.2 = .data then none else ballSees s c.1
  sees.getD (Config.freeLevel (s.fresh + i))

/-- A code is loaded into the instruction register. Where it selects the boundary register, that captures the balls, what it
captured leaves at TDO, and what was shifted in behind it is put into its cells (R641, R642). -/
def scanLoad (s : State) (code : BitVec 4) (selects : Bool) (cells : List Bool) : State :=
  let s := { s with jtag := { s.jtag with ir := irSelect code } }
  if !selects || !scanFits cells then s
  else { s with fresh := s.fresh + boundary.length
                jtag := { s.jtag with cells := cells, capt := boundary.zipIdx.map fun p => cellCaptures s p.2 p.1 } }

/-- The bits that leave at TDO in a scan of the boundary register: the cell furthest from TDI first (R642). -/
def scanOut (s : State) : List Bool := s.jtag.capt.reverse

/-- EXTEST (R641 to R644): the instruction is selected; where it acts as BYPASS the boundary register is not. -/
def execExtest (cells : List Bool) (s : State) : Host.Outcome State Fault Refusal :=
  done (scanLoad s 0x0 (scanPermitted s) cells)

/-- SAMPLE/PRELOAD (R642, R644). -/
def execSamplePreload (cells : List Bool) (s : State) : Host.Outcome State Fault Refusal :=
  done (scanLoad s 0x1 (!otpLock s 5) cells)

/-- HIGHZ (R643). -/
def execHighz (s : State) : Host.Outcome State Fault Refusal := done (scanLoad s 0x2 false [])

/-- BYPASS (R641): one of its codes is loaded, or with none the TAP passes through Test-Logic-Reset, where the instruction is
BYPASS. -/
def execBypass (code : Option (BitVec 4)) (s : State) : Host.Outcome State Fault Refusal :=
  done (if irSelect (code.getD 0xF) = 0xF then scanLoad s (code.getD 0xF) false [] else s)

end Sys2Proof.Machine
end

