-- ==== Sys2Proof/Machine/Startup.lean ====
section
/-! DEFINITION. Start-up: resets and their releases, OTP sensing, the retention check, the status poll with JESD216
discovery, and the grist loader (03_start_up_and_grist.md; 15_spi_ports.md, R531 to R534); the debug instruction of the
test access port (19_proof.md, R645). -/

namespace Sys2Proof.Machine

open Sys2Proof

-- resets

/-- POR_RELEASE (R650, R651): VDD_AON has reached the lower edge of the AON_OK window with VDD_CORE in range, and the
oscillator phase begins. The other supplies and the junction temperature are as they are found then, with their conditions where
they are out of range (R232, R664). -/
def porReleased (s : State) (aonMv coreMv vsysMv vbatMv : Nat) : State :=
  if s.boot.phase ≠ .supply || aonMv < 1710 || !within coreMv 600 900 then s
  else
    let low := !riseTrips s.fresh vsysMv 4350 4500
    let high := riseTrips (s.fresh + 1) vsysMv 28500 30500
    let vbat := riseTrips (s.fresh + 2) vbatMv 1450 1550
    let hot := riseTrips (s.fresh + 3) s.supply.dieC.toNat 120 130
    let s := { s with
      fresh := s.fresh + 4
      boot := { s.boot with phase := .oscillator }
      supply := { s.supply with vsysOk := !low && !high, aonOk := aonMv ≤ 1890, coreOk := true, vbatOk := vbat } }
    let s := dieWarnJudge ((((s.condSet 0 0 0 low).condSet 0 1 0 high).condSet 0 3 0 (1890 < aonMv)).condSet 0 7 0 !vbat)
    if hot then dieShutDo s s.supply.dieC else s

/-- Chip reset releases and OTP sensing begins, with TESTMODE sampled (R61, R84). -/
def resetReleased (s : State) (testmode : Bool) : State :=
  { s with boot := { s.boot with phase := .otpSensing, reset := none, testmode := testmode } }

/-- OSCILLATOR_COUNT_END (R80). -/
def oscillatorEnd (s : State) (testmode : Bool) : State :=
  if s.boot.phase = .oscillator then resetReleased s testmode else s

/-- RESET_N_LOW (R62, R81): during a chip reset that another cause made, RESET_N keeps it in force. Before chip reset is
first released, in the supply and oscillator phases, it has no effect (DESIGN CHOICE, log entry 29). -/
def resetLow (s : State) : State :=
  match s.boot.phase with
  | .supply | .oscillator => s
  | _ =>
    if s.boot.reset.isSome then { s with boot := { s.boot with reset := some .pin } }.orReg 0x002E 2
    else chipReset s .pin

/-- RESET_N_RISE (R81). -/
def resetRise (s : State) (testmode : Bool) : State :=
  if s.boot.reset = some .pin then resetReleased s testmode else s

/-- CHIP_RESET_RELEASE (R81). -/
def resetTimed (s : State) (testmode : Bool) : State :=
  if s.boot.reset = some .soft ∨ s.boot.reset = some .fault then resetReleased s testmode else s

-- OTP sensing

/-- The read mode of READMODE[1:0], laid out as SPH_RDCFG [14:0] (R531). -/
def loadMode (m : Nat) : Word :=
  match m % 4 with
  | 0 => 0x0003
  | 1 => 0x080B
  | 2 => 0x183B
  | _ => 0x286B

/-- OTP words as the normal read level gives them, by word: the OR of the two copies, and whether they differ (R85,
R86). -/
def senseWord (s : State) (w : Nat) : Word × Bool :=
  let p := normalPair s w w
  (p.1 ||| p.2, p.1 != p.2)

/-- I2CA_ADDR from the address field (R618). -/
def i2cField (w : Word) : Word :=
  let x := (w &&& 0x007F) ^^^ 0x0048
  if x.toNat < 8 ∨ 0x78 ≤ x.toNat then 0x0048 else x

/-- What OTP sensing derives from the words it read (R68, R69, R85 to R89, R531, R618, R620, R630). -/
def applyOtp (s : State) (straps : Byte) : State :=
  let o := fun (w : Nat) => mget dZero s.otp.sensed w
  let fix := field (o 0x68) 15 8
  let strap := straps.toNat
  let id := (field (o 0x68) 7 0 &&& fix) ||| (strap &&& (255 - fix))
  let rm := field (o 0x6A) 3 0
  let cal := bit (o 0xFF) 1 && o 0x40 != 0
  let s := (s.setReg 0x0040 (wd id)).setReg 0x0041 (wd (strap + 256 * fix))
  let s := s.setReg 0x002B (wd (field (o 0x69) 15 8 + 256 * rm))
  let s := (s.setReg 0x6001 (o 0xFF &&& 0x007F)).setReg 0x6000 (wd (flag cal 2))
  let s := { s with i2ca := { s.i2ca with addr := (i2cField (o 0x69)).setWidth 7 } }
  let s := (s.setReg 0x5206 (i2cField (o 0x69))).setReg 0x5001 (if rm.testBit 2 then 2 else 4)
  { s.setReg 0x5002 (loadMode rm) with sphMode := loadMode rm, sphAddr4 := false, sphUse := loadMode rm }

/-- The units that enter a state at the end of OTP sensing, without a transition (R25, R557, R587). -/
def startUnits (s : State) : State := [uSph, uSpt, uI2ca, uUart].foldl (fun s u => s.setCode u 1) s

/-- OTP_SENSING_END (R85, R86, R257, R614). -/
def sensingEnd (s : State) (straps : Byte) : State :=
  if s.boot.phase ≠ .otpSensing || s.boot.reset.isSome then s
  else
    let ws := (List.range 256).map fun w => (w, senseWord s w)
    let m := ws.foldl (fun (m : Map Word) (p : Nat × (Word × Bool)) => mset dZero m p.1 p.2.1) []
    let diff := (ws.filter fun p => p.2.2).length
    let s := { s with fresh := s.fresh + 512, otp := { s.otp with sensed := m, shown := m } }
    let s := (startUnits (applyOtp s straps)).setReg 0x002C (wd diff)
    let s := if diff = 0 then s else s.occur 8 5 (BitVec.ofNat 8 (min 255 diff))
    let s := if s.supply.revLatch then { s with supply := { s.supply with revLatch := false } }.occur 0 2 0 else s
    { s with boot := { s.boot with phase := .retention }
             clock := { s.clock with porSeed := s.clock.porSeed || s.boot.fromPor } }

/-- A command that reads `rd` bytes on one line, with no address. -/
def plainCmd (s : State) (op : Byte) (rd : Nat) : SphCmd :=
  { op := op, div := field (s.reg 0x5001) 5 0, addr := none, addrBytes := 0, dummy := 0, lines := 1, rd := rd, wr := [] }

/-- The flash commands that begin a load: reset-enable, reset, and the polls of the status register (R90). -/
def loadPoll (s : State) : List SphCmd := [plainCmd s 0x66 0, plainCmd s 0x99 0, plainCmd s 0x05 1]

/-- RETENTION_CHECK_END (R80, R84, R88, R296): the RESET entry is the first of the start. -/
def retentionEnd (s : State) : State :=
  if s.boot.phase ≠ .retention then s
  else
    let s := logPut s 0x05 false [s.reg 0x002E]
    let s := s.boot.stopDue.foldl (fun s w => logPut s 0x02 false [w]) { s with boot := { s.boot with stopDue := [] } }
    if s.boot.testmode then { s with boot := { s.boot with phase := .testHold } }
    else
      { s with boot := { s.boot with phase := .load, polled := false, cmds := loadPoll s, crc := 0xFFFFFFFF, bytes := 0,
                                     index := 0 } }.setReg
        0x0020 ((s.reg 0x0021 &&& 1) <<< 6)

-- the start of the load

/-- Byte i of the SFDP header and the first parameter header. -/
def sfdpByte (d : Sfdp) (i : Nat) : Nat := (d.header.getD i 0).toNat

/-- Bits [hi:lo] of DWORD n, counted from 1, of the basic flash parameter table. -/
def sfdpField (d : Sfdp) (n hi lo : Nat) : Nat := ((d.table.getD (n - 1) 0).toNat >>> lo) % 2 ^ (hi + 1 - lo)

/-- The signature reads "SFDP" and the table's major revision is 1 (R532). Where JESD216 places these and the fields below is
PRESUMED (log entry 74). -/
def sfdpAccepted (d : Sfdp) : Bool :=
  sfdpByte d 0 == 0x53 && sfdpByte d 1 == 0x46 && sfdpByte d 2 == 0x44 && sfdpByte d 3 == 0x50 && sfdpByte d 10 == 1

/-- Byte address of the basic flash parameter table, as its parameter header gives it. -/
def sfdpTable (d : Sfdp) : Nat := sfdpByte d 12 + 256 * sfdpByte d 13 + 65536 * sfdpByte d 14

/-- The address-bytes field reads 4-byte only (R533). -/
def sfdpAddr4 (d : Sfdp) : Bool := sfdpField d 1 18 17 == 2

/-- A read mode as SPH_RDCFG [14:0] lays it out: instruction, wait-state and mode-clock counts, and the code of its lines. Four
bits hold the sum of the counts; a greater one is a free value (log entry 5). -/
def fastMode (fresh op wait mode lines : Nat) : Word :=
  wd (op + 256 * (if wait + mode < 16 then wait + mode else (Config.freeDummy fresh).toNat) + 4096 * lines)

/-- The mode that an accepted discovery table chooses: the widest that it supports within the line count of READMODE[1:0]
(R532), and 4-byte addresses where it reads 4-byte only (R533). -/
def sfdpMode (fresh : Nat) (d : Sfdp) (lines : Nat) : Word :=
  let m : Word :=
    if lines = 3 ∧ sfdpField d 1 22 22 = 1 then
      fastMode fresh (sfdpField d 3 31 24) (sfdpField d 3 20 16) (sfdpField d 3 23 21) 2
    else if 2 ≤ lines ∧ sfdpField d 1 16 16 = 1 then
      fastMode fresh (sfdpField d 4 15 8) (sfdpField d 4 4 0) (sfdpField d 4 7 5) 1
    else 0x080B
  if sfdpAddr4 d then m ||| 0x4000 else m

/-- A discovery read of `rd` bytes (R532): command 0x5A, a 3-byte address, 8 dummy cycles, one line, 25 MHz. -/
def sfdpRead (a rd : Nat) : SphCmd :=
  { op := 0x5A, div := 4, addr := some a, addrBytes := 3, dummy := 8, lines := 1, rd := rd, wr := [] }

/-- The commands of a discovery: the header and the basic table, and 0xB7 where an accepted table reads 4-byte only (R532,
R533). -/
def discoverCmds (s : State) (d : Sfdp) : List SphCmd :=
  [sfdpRead 0 16, sfdpRead (sfdpTable d) (4 * d.table.length)] ++
    (if sfdpAccepted d && sfdpAddr4 d then [plainCmd s 0xB7 0] else [])

/-- JESD216 discovery, where READMODE[3] selects it (R531 to R534). -/
def discover (s : State) (d : Sfdp) : State :=
  let rm := field (s.reg 0x002B) 11 8
  if !rm.testBit 3 then s
  else
  let s := { s with boot := { s.boot with cmds := s.boot.cmds ++ discoverCmds s d } }
  if sfdpAccepted d then
    let m := sfdpMode s.fresh d (rm % 4)
    { ((s.tick).orReg 0x5000 2).setReg 0x5002 m with sphMode := m, sphAddr4 := sfdpAddr4 d }
  else (s.orReg 0x5000 4).orReg 0x5008 4

/-- Byte address in the memory at which the image window of a load begins: slot A at GRIST_OFS × 0x1_0000, slot B the
next 0x1_0000 (R87, R88). -/
def imageBase (s : State) : Nat := (field (s.reg 0x002B) 7 0 + field (s.reg 0x0020) 6 6) * 0x10000

/-- Byte address of the next byte that the loader reads. -/
def loaderAt (s : State) : Nat := memAddr s (imageBase s + s.boot.bytes)

/-- The loader's next read command: 256 bytes of the window from byte b, in the mode in use (R89, R538). The manual bounds the
length alone: that every command reads 256 bytes is a DESIGN CHOICE (log entry 63). -/
def loaderCmd (s : State) (b : Nat) : State :=
  let x := readCmd s (imageBase s + b) 256
  let s := { s with boot := { s.boot with cmds := s.boot.cmds ++ [x] } }
  { s with sphUse := rdMode s }

/-- The loader begins to read the slot (R90). -/
def startReading (s : State) (d : Sfdp) : State :=
  loaderCmd (discover { s with boot := { s.boot with polled := true } } d) 0

/-- STATUS_POLL_DONE (R90). A logic proof, which only a host could start and none can in the load phase (R83, R632), would hold
the port (R635). -/
def pollDone (s : State) (d : Sfdp) : State :=
  if s.boot.phase = .load && !s.boot.polled && proofRun s != 2 then startReading s d else s

/-- SPH_NORESP (R90, R541). -/
def pollTimeout (s : State) (d : Sfdp) : State :=
  if s.boot.phase = .load && !s.boot.polled && proofRun s != 2 then
    startReading (((s.orReg 0x5000 1).orReg 0x5008 1).occur 6 0x15 0) d
  else s

-- the loader

/-- The loader reads records; while SPH is fenced there are no grist reads (R242), and a logic proof holds the SPI host (R634,
R635). -/
def loading (s : State) : Bool :=
  s.boot.phase = .load && s.boot.polled && !(s.unit uSph).fenced && proofRun s != 2

/-- The numbers of the 256-byte reads that bring the bytes of the window from byte b0, all earlier reads done, up to b1. -/
def chunks (b0 b1 : Nat) : List Nat :=
  let first := if b0 = 0 then 1 else (b0 - 1) / 256 + 1
  let last := if b1 = 0 then 0 else (b1 - 1) / 256
  (List.range (last + 1 - first)).map (· + first)

/-- The reads that the next n bytes need can be made: no direct transfer holds the port (R542). -/
def portFree (s : State) (n : Nat) : Bool := !xBusy s || (chunks s.boot.bytes (s.boot.bytes + n)).isEmpty

/-- The read commands that bring the next n bytes. -/
def readNext (s : State) (n : Nat) : State :=
  (chunks s.boot.bytes (s.boot.bytes + n)).foldl (fun s c => loaderCmd s (256 * c)) s

/-- Words that the loader has consumed (R106, R107). -/
def consume (s : State) (ws : List Word) : State :=
  let crc := crc32 s.boot.crc (wordBytes ws)
  let bytes := s.boot.bytes + 2 * ws.length
  let s := readNext s (2 * ws.length)
  ({ s with boot := { s.boot with crc := crc, bytes := bytes } }.setPair 0x0027 (BitVec.ofNat 32 bytes)).setPair 0x0029
    (crc ^^^ 0xFFFFFFFF)

/-- A rejected loader write or commit is counted, the first one with its record and code (R102). -/
def rejected (s : State) (c : Word) : State :=
  if c = eOk then s
  else
    let s := if s.reg 0x0024 = 0 then (s.setReg 0x0025 (wd s.boot.index)).setReg 0x0026 c else s
    s.setReg 0x0024 (wd (satInc (s.reg 0x0024).toNat 0xFFFF))

/-- One write of the loader (R100, R102). Addresses that run past 0xFFFF go on at 0x0000 (DESIGN CHOICE, log entry
30). -/
def loaderWrite (s : State) (a : Nat) (v : Word) : State :=
  let x := busWrite s .loader (a % 65536) v
  rejected x.1 x.2

/-- Data words to consecutive addresses. -/
def loaderWords (s : State) (a : Nat) : List Word → State
  | [] => s
  | v :: vs => loaderWords (loaderWrite s a v) (a + 1) vs

/-- A header word. -/
def header (typ len : Nat) : Word := wd (4096 * typ + len)

/-- The record fits in what is left of the window (R97), and can be read. -/
def fits (s : State) (payload : List Word) : Bool :=
  s.boot.bytes + 2 + 2 * payload.length ≤ 0x10000 && portFree s (2 + 2 * payload.length)

/-- A complete record of type `typ` that is acted on: `f` is its action; `count` the register that counts it (R105). -/
def record (s : State) (typ : Nat) (payload : List Word) (f : State → State) : State :=
  if !loading s || !fits s payload then s
  else
    let s := f (consume s (header typ payload.length :: payload))
    let s := s.setReg 0x0022 (s.reg 0x0022 + 1)
    { s with boot := { s.boot with index := s.boot.index + 1 } }

/-- WRITE (R95, R98): address and data words. -/
def loadWrite (s : State) (payload : List Word) : State :=
  match payload with
  | a :: d :: ds => if payload.length ≤ 4095 then record s 1 payload fun s => loaderWords s a.toNat (d :: ds) else s
  | _ => s

/-- What MASK takes as the old value: the staged word if the address is in the draught, what a read returns otherwise
(08_commits_recovery_and_cellar.md, "Corner cases"). -/
def maskOld (s : State) (a : Nat) : Word :=
  match s.staged a with
  | some e => e.word
  | none => view s .loader a

/-- MASK (R95). -/
def loadMask (s : State) (a m v : Word) : State :=
  record s 2 [a, m, v] fun s => loaderWrite s a.toNat ((maskOld s a.toNat &&& ~~~m) ||| (v &&& m))

/-- FILL (R95). -/
def loadFill (s : State) (a n v : Word) : State :=
  record s 3 [a, n, v] fun s => loaderWords s a.toNat (List.replicate n.toNat v)

/-- COMMIT (R95, R275): a failed one counts as a rejected write. -/
def loadCommit (s : State) (g : Word) : State :=
  record s 4 [g] fun s =>
    let x := opCommit s .loader g
    rejected x.1 x.2.1

/-- TAG (R95). -/
def loadTag (s : State) (ws : List Word) : State :=
  if within ws.length 1 8 then
    record s 5 ws fun s => (List.range 8).foldl (fun s i => s.setReg (0x0030 + i) (ws.getD i 0)) s
  else s

/-- A header whose record is skipped by LEN (R95, R99). -/
def skips (h : Word) : Bool :=
  let len := field h 11 0
  match field h 15 12 with
  | 0 => false
  | 1 => len < 2
  | 2 | 3 => len ≠ 3
  | 4 => len ≠ 1
  | 5 => !within len 1 8
  | _ => h ≠ 0xFFFF

/-- SKIPPED_RECORD (R99, R105). -/
def loadSkip (s : State) (h : Word) (payload : List Word) : State :=
  if !loading s || !fits s payload || !skips h || field h 11 0 ≠ payload.length then s
  else
    let s := consume s (h :: payload)
    { s.setReg 0x0023 (s.reg 0x0023 + 1) with boot := { s.boot with index := s.boot.index + 1 } }

/-- The load stops (R103, R109, R110): 1 TERM, 2 ERASED, 3 WINDOW. -/
def loadStops (s : State) (stop : Nat) : State :=
  let aborted := s.draught.any fun e => e.loader
  let slot := field (s.reg 0x0020) 6 6
  let s := (dropLoader s).setReg 0x0020 (wd (8 * stop + 32 + 64 * slot + flag aborted 7))
  let s := logPut s 0x03 false
    [wd (slot + 2 * stop), s.reg 0x0022, s.reg 0x0024, s.reg 0x0029, s.reg 0x002A, s.reg 0x0027, s.reg 0x0028]
  let s := { s with boot := { s.boot with phase := .ready } }
  if bit (s.reg 0x002D) 0 then startTable s false else s

/-- TERM (R96). -/
def loadTerm (s : State) (len : BitVec 12) : State :=
  if loading s && fits s [] then loadStops (consume s [header 0 len.toNat]) 1 else s

/-- ERASED (R96, R107): the header is read, and not consumed. -/
def loadErased (s : State) : State := if loading s && fits s [] then loadStops (readNext s 2) 2 else s

/-- WINDOW (R97): `part` is what stands between the last complete record and the end of the window. -/
def loadWindow (s : State) (part : List Word) : State :=
  if !loading s || s.boot.bytes + 2 * part.length ≠ 0x10000 || !portFree s (2 * part.length) then s
  else match part with
  | [] => loadStops s 3
  | h :: ps =>
    if field h 15 12 = 0 || h = 0xFFFF || field h 11 0 ≤ ps.length then s
    else
      let s := consume s part
      let s := match field h 15 12, ps with
        | 1, a :: ds => if skips h then s else loaderWords s a.toNat ds
        | _, _ => s
      loadStops s 3

-- the test access port

/-- ENGDBG (R645, R646): an access to the DBG block, ignored while DONE reads 0; the data register then shows its outcome. At
reset no access is outstanding, and DONE reads 1 (DESIGN CHOICE, log entry 45). -/
def engDbg (s : State) (dr : BitVec 34) : State :=
  let s := { s with jtag := { s.jtag with ir := 0x8 } }
  let a := (dr >>> 16).setWidth 16
  let v : Word := dr.setWidth 16
  let out (s : State) (c w : Word) : State :=
    { s with jtag := { s.jtag with dr := BitVec.ofNat 34 (flag true 33 + flag (c != eOk) 32 + a.toNat * 65536 +
        (if c = eOk then w else c).toNat) } }
  let n : Nat := BitVec.toNat (a : Word)
  if !dr.getLsbD 33 || !s.jtag.dr.getLsbD 33 || !servesAccesses s then s
  else if !(0x2400 ≤ n && n < 0x2800) then out s eRange 0
  -- no check in this range depends on who makes the access
  else if dr.getLsbD 32 then
    let c := writeCode s (.engine 0) n v
    if c = eOk then out (applyWrite s (.engine 0) n v) eOk v else out s c 0
  else
    let c := readCode s (.engine 0) n
    out s c (if c = eOk then view s (.engine 0) n else 0)

-- the commands of these chapters

/-- POWER_ON_RESET (R25, R650): VDD_AON has fallen to the threshold, within its tolerance. -/
def execPowerOnReset (aonMv : Nat) (s : State) : Host.Outcome State Fault Refusal :=
  done (if aonMv ≤ 1600 then powerOnReset s else s)

/-- POR_RELEASE (R650, R651). -/
def execPorRelease (aonMv coreMv vsysMv vbatMv : Nat) (s : State) : Host.Outcome State Fault Refusal :=
  done (porReleased s aonMv coreMv vsysMv vbatMv)

/-- OSCILLATOR_COUNT_END (R80). -/
def execOscillatorCountEnd (testmode : Bool) (s : State) : Host.Outcome State Fault Refusal :=
  done (oscillatorEnd s testmode)

/-- OTP_SENSING_END (R85). -/
def execOtpSensingEnd (straps : Byte) (s : State) : Host.Outcome State Fault Refusal := done (sensingEnd s straps)

/-- RETENTION_CHECK_END (R80). -/
def execRetentionCheckEnd (s : State) : Host.Outcome State Fault Refusal := done (retentionEnd s)

/-- STATUS_POLL_DONE (R90). -/
def execStatusPollDone (d : Sfdp) (s : State) : Host.Outcome State Fault Refusal := done (pollDone s d)

/-- SPH_NORESP (R541). -/
def execSphNoresp (d : Sfdp) (s : State) : Host.Outcome State Fault Refusal := done (pollTimeout s d)

/-- WRITE (R95). -/
def execWrite (payload : List Word) (s : State) : Host.Outcome State Fault Refusal := done (loadWrite s payload)

/-- MASK (R95). -/
def execMask (a m v : Word) (s : State) : Host.Outcome State Fault Refusal := done (loadMask s a m v)

/-- FILL (R95). -/
def execFill (a n v : Word) (s : State) : Host.Outcome State Fault Refusal := done (loadFill s a n v)

/-- GRIST_COMMIT (R275). -/
def execGristCommit (g : Word) (s : State) : Host.Outcome State Fault Refusal := done (loadCommit s g)

/-- TAG (R95). -/
def execTag (ws : List Word) (s : State) : Host.Outcome State Fault Refusal := done (loadTag s ws)

/-- SKIPPED_RECORD (R99). -/
def execSkippedRecord (h : Word) (payload : List Word) (s : State) : Host.Outcome State Fault Refusal :=
  done (loadSkip s h payload)

/-- TERM (R96). -/
def execTerm (len : BitVec 12) (s : State) : Host.Outcome State Fault Refusal := done (loadTerm s len)

/-- ERASED (R96). -/
def execErased (s : State) : Host.Outcome State Fault Refusal := done (loadErased s)

/-- WINDOW (R97). -/
def execWindow (part : List Word) (s : State) : Host.Outcome State Fault Refusal := done (loadWindow s part)

/-- RESET_N_LOW (R62). -/
def execResetNLow (s : State) : Host.Outcome State Fault Refusal := done (resetLow s)

/-- RESET_N_RISE (R81). -/
def execResetNRise (testmode : Bool) (s : State) : Host.Outcome State Fault Refusal := done (resetRise s testmode)

/-- CHIP_RESET_RELEASE (R81). -/
def execChipResetRelease (testmode : Bool) (s : State) : Host.Outcome State Fault Refusal :=
  done (resetTimed s testmode)

/-- ENGDBG (R645). -/
def execEngdbg (dr : BitVec 34) (s : State) : Host.Outcome State Fault Refusal := done (engDbg s dr)

end Sys2Proof.Machine
end

