-- ==== Sys2Proof/Machine/Dispatch.lean ====
section
/-! DEFINITION. The meaning of every command, one arm each. -/

namespace Sys2Proof.Machine

open Sys2Proof

def exec (i : Instr) (s : State) : Host.Outcome State Fault Refusal :=
  match i with
  | .powerOnReset aonMv => Sys2Proof.Machine.execPowerOnReset aonMv s
  | .porRelease aonMv coreMv vsysMv vbatMv => Sys2Proof.Machine.execPorRelease aonMv coreMv vsysMv vbatMv s
  | .oscillatorCountEnd testmode => Sys2Proof.Machine.execOscillatorCountEnd testmode s
  | .otpSensingEnd straps => Sys2Proof.Machine.execOtpSensingEnd straps s
  | .retentionCheckEnd => Sys2Proof.Machine.execRetentionCheckEnd s
  | .statusPollDone sfdp => Sys2Proof.Machine.execStatusPollDone sfdp s
  | .sphNoresp sfdp => Sys2Proof.Machine.execSphNoresp sfdp s
  | .write payload => Sys2Proof.Machine.execWrite payload s
  | .mask addr msk val => Sys2Proof.Machine.execMask addr msk val s
  | .fill addr count val => Sys2Proof.Machine.execFill addr count val s
  | .gristCommit group => Sys2Proof.Machine.execGristCommit group s
  | .tag ws => Sys2Proof.Machine.execTag ws s
  | .skippedRecord header payload => Sys2Proof.Machine.execSkippedRecord header payload s
  | .term len => Sys2Proof.Machine.execTerm len s
  | .erased => Sys2Proof.Machine.execErased s
  | .window part => Sys2Proof.Machine.execWindow part s
  | .resetNLow => Sys2Proof.Machine.execResetNLow s
  | .resetNRise testmode => Sys2Proof.Machine.execResetNRise testmode s
  | .glbReset r => Sys2Proof.Machine.execGlbReset r s
  | .chipResetRelease testmode => Sys2Proof.Machine.execChipResetRelease testmode s
  | .registerWrite r addr val => Sys2Proof.Machine.execRegisterWrite r addr val s
  | .stagedWrite r addr val => Sys2Proof.Machine.execStagedWrite r addr val s
  | .hiWrite r addr val => Sys2Proof.Machine.execHiWrite r addr val s
  | .loWrite r addr val => Sys2Proof.Machine.execLoWrite r addr val s
  | .loRead r addr => Sys2Proof.Machine.execLoRead r addr s
  | .timeSnapshot r => Sys2Proof.Machine.execTimeSnapshot r s
  | .unitInspect r => Sys2Proof.Machine.execUnitInspect r s
  | .unitGive r => Sys2Proof.Machine.execUnitGive r s
  | .unitTake r => Sys2Proof.Machine.execUnitTake r s
  | .unitRelease r => Sys2Proof.Machine.execUnitRelease r s
  | .unitFence r => Sys2Proof.Machine.execUnitFence r s
  | .startCheckEnd n moved m => Sys2Proof.Machine.execStartCheckEnd n moved m s
  | .rampDone n => Sys2Proof.Machine.execRampDone n s
  | .settleDone n cycles lo hi => Sys2Proof.Machine.execSettleDone n cycles lo hi s
  | .stopRampDone k => Sys2Proof.Machine.execStopRampDone k s
  | .perPhaseApply n => Sys2Proof.Machine.execPerPhaseApply n s
  | .ov n m => Sys2Proof.Machine.execOv n m s
  | .uv n m => Sys2Proof.Machine.execUv n m s
  | .oc n m => Sys2Proof.Machine.execOc n m s
  | .short n m => Sys2Proof.Machine.execShort n m s
  | .openSense n m => Sys2Proof.Machine.execOpenSense n m s
  | .stageFlt n m => Sys2Proof.Machine.execStageFlt n m s
  | .stageOt n m => Sys2Proof.Machine.execStageOt n m s
  | .ssto n m => Sys2Proof.Machine.execSsto n m s
  | .trackErr n m => Sys2Proof.Machine.execTrackErr n m s
  | .lastFaultRecordWrite verified => Sys2Proof.Machine.execLastFaultRecordWrite verified s
  | .hushBegin n => Sys2Proof.Machine.execHushBegin n s
  | .hushEnd n => Sys2Proof.Machine.execHushEnd n s
  | .hushDroop n sense => Sys2Proof.Machine.execHushDroop n sense s
  | .ldoPgRise n out => Sys2Proof.Machine.execLdoPgRise n out s
  | .pgTimeout n => Sys2Proof.Machine.execPgTimeout n s
  | .pgLoss n out => Sys2Proof.Machine.execPgLoss n out s
  | .svEventBegin n high uv cycles => Sys2Proof.Machine.execSvEventBegin n high uv cycles s
  | .svEventEnd n high uv cycles => Sys2Proof.Machine.execSvEventEnd n high uv cycles s
  | .dieShut degC => Sys2Proof.Machine.execDieShut degC s
  | .dieWarn degC => Sys2Proof.Machine.execDieWarn degC s
  | .refReg => Sys2Proof.Machine.execRefReg s
  | .supplyFault src mv => Sys2Proof.Machine.execSupplyFault src mv s
  | .vsysRevLatch mv vbatMv => Sys2Proof.Machine.execVsysRevLatch mv vbatMv s
  | .faultConditionClear cls src val => Sys2Proof.Machine.execFaultConditionClear cls src val s
  | .errNInput low => Sys2Proof.Machine.execErrNInput low s
  | .seqPowerOn r => Sys2Proof.Machine.execSeqPowerOn r s
  | .seqShutdown r => Sys2Proof.Machine.execSeqShutdown r s
  | .seqColdStop r => Sys2Proof.Machine.execSeqColdStop r s
  | .seqStepEnter => Sys2Proof.Machine.execSeqStepEnter s
  | .seqActionRetry => Sys2Proof.Machine.execSeqActionRetry s
  | .seqConditionMet => Sys2Proof.Machine.execSeqConditionMet s
  | .seqStepTimeout => Sys2Proof.Machine.execSeqStepTimeout s
  | .seqWinW3Write r val => Sys2Proof.Machine.execSeqWinW3Write r val s
  | .seqWinSelWrite r val => Sys2Proof.Machine.execSeqWinSelWrite r val s
  | .stopNFall stays => Sys2Proof.Machine.execStopNFall stays s
  | .stopNRelease low => Sys2Proof.Machine.execStopNRelease low s
  | .stopNMaskEnd low => Sys2Proof.Machine.execStopNMaskEnd low s
  | .status p q => Sys2Proof.Machine.execStatus p q s
  | .read p q => Sys2Proof.Machine.execRead p q s
  | .setV p q => Sys2Proof.Machine.execSetV p q s
  | .adjV p q => Sys2Proof.Machine.execAdjV p q s
  | .on p q => Sys2Proof.Machine.execOn p q s
  | .off p q => Sys2Proof.Machine.execOff p q s
  | .frameTo p => Sys2Proof.Machine.execFrameTo p s
  | .contention x => Sys2Proof.Machine.execContention x s
  | .faultOccurrence k => Sys2Proof.Machine.execFaultOccurrence k s
  | .blockResetDone u => Sys2Proof.Machine.execBlockResetDone u s
  | .errNRelease => Sys2Proof.Machine.execErrNRelease s
  | .fltAck r val => Sys2Proof.Machine.execFltAck r val s
  | .fltScnt r val => Sys2Proof.Machine.execFltScnt r val s
  | .fltInject r => Sys2Proof.Machine.execFltInject r s
  | .fltStoreErase r => Sys2Proof.Machine.execFltStoreErase r s
  | .commit r => Sys2Proof.Machine.execCommit r s
  | .abort r => Sys2Proof.Machine.execAbort r s
  | .draughtRead r => Sys2Proof.Machine.execDraughtRead r s
  | .logWrite r => Sys2Proof.Machine.execLogWrite r s
  | .logRdptrWrite r val => Sys2Proof.Machine.execLogRdptrWrite r val s
  | .add e d rs => Sys2Proof.Machine.execAdd e d rs s
  | .sub e d rs => Sys2Proof.Machine.execSub e d rs s
  | .adds e d rs => Sys2Proof.Machine.execAdds e d rs s
  | .subs e d rs => Sys2Proof.Machine.execSubs e d rs s
  | .and e d rs => Sys2Proof.Machine.execAnd e d rs s
  | .or e d rs => Sys2Proof.Machine.execOr e d rs s
  | .xor e d rs => Sys2Proof.Machine.execXor e d rs s
  | .mov e d rs => Sys2Proof.Machine.execMov e d rs s
  | .cmp e d rs => Sys2Proof.Machine.execCmp e d rs s
  | .lsl e d rs => Sys2Proof.Machine.execLsl e d rs s
  | .lsr e d rs => Sys2Proof.Machine.execLsr e d rs s
  | .asr e d rs => Sys2Proof.Machine.execAsr e d rs s
  | .ror e d rs => Sys2Proof.Machine.execRor e d rs s
  | .mul e d rs => Sys2Proof.Machine.execMul e d rs s
  | .div e d rs => Sys2Proof.Machine.execDiv e d rs s
  | .divu e d rs => Sys2Proof.Machine.execDivu e d rs s
  | .neg e d rs => Sys2Proof.Machine.execNeg e d rs s
  | .negs e d rs => Sys2Proof.Machine.execNegs e d rs s
  | .not e d rs => Sys2Proof.Machine.execNot e d rs s
  | .mulu e d rs => Sys2Proof.Machine.execMulu e d rs s
  | .mff e d => Sys2Proof.Machine.execMff e d s
  | .mtf e rs => Sys2Proof.Machine.execMtf e rs s
  | .claim e d => Sys2Proof.Machine.execClaim e d s
  | .sig e rs => Sys2Proof.Machine.execSig e rs s
  | .kick e => Sys2Proof.Machine.execKick e s
  | .sleep e => Sys2Proof.Machine.execSleep e s
  | .reti e => Sys2Proof.Machine.execReti e s
  | .retx e => Sys2Proof.Machine.execRetx e s
  | .retn e => Sys2Proof.Machine.execRetn e s
  | .addi e d imm => Sys2Proof.Machine.execAddi e d imm s
  | .cmpi e d imm => Sys2Proof.Machine.execCmpi e d imm s
  | .ldi e d imm => Sys2Proof.Machine.execLdi e d imm s
  | .ldl e d imm => Sys2Proof.Machine.execLdl e d imm s
  | .ld e d rs k => Sys2Proof.Machine.execLd e d rs k s
  | .st e d rs k => Sys2Proof.Machine.execSt e d rs k s
  | .bcc e cond off => Sys2Proof.Machine.execBcc e cond off s
  | .jmp e target => Sys2Proof.Machine.execJmp e target s
  | .call e target => Sys2Proof.Machine.execCall e target s
  | .jr e rs => Sys2Proof.Machine.execJr e rs s
  | .callr e rs => Sys2Proof.Machine.execCallr e rs s
  | .wait e d rs t => Sys2Proof.Machine.execWait e d rs t s
  | .waitTimeout e => Sys2Proof.Machine.execWaitTimeout e s
  | .commitInstr e d rs => Sys2Proof.Machine.execCommitInstr e d rs s
  | .abortInstr e d rs => Sys2Proof.Machine.execAbortInstr e d rs s
  | .ureqSetv e d rs => Sys2Proof.Machine.execUreqSetv e d rs s
  | .ureqOn e d rs => Sys2Proof.Machine.execUreqOn e d rs s
  | .ureqOff e d rs => Sys2Proof.Machine.execUreqOff e d rs s
  | .trap e imm => Sys2Proof.Machine.execTrap e imm s
  | .illegal e => Sys2Proof.Machine.execIllegal e s
  | .exceptionEntry e => Sys2Proof.Machine.execExceptionEntry e s
  | .interruptEntry e => Sys2Proof.Machine.execInterruptEntry e s
  | .nmiEntry e => Sys2Proof.Machine.execNmiEntry e s
  | .wdog e => Sys2Proof.Machine.execWdog e s
  | .engineStop e => Sys2Proof.Machine.execEngineStop e s
  | .lineFill e f => Sys2Proof.Machine.execLineFill e f s
  | .inv r => Sys2Proof.Machine.execInv r s
  | .dbgHalt r e => Sys2Proof.Machine.execDbgHalt r e s
  | .haltTaken e => Sys2Proof.Machine.execHaltTaken e s
  | .dbgResume r e => Sys2Proof.Machine.execDbgResume r e s
  | .step r e => Sys2Proof.Machine.execStep r e s
  | .irqPendWrite r w val => Sys2Proof.Machine.execIrqPendWrite r w val s
  | .irqDoorbell r val => Sys2Proof.Machine.execIrqDoorbell r val s
  | .irqClaimA r lineB => Sys2Proof.Machine.execIrqClaimA r lineB s
  | .irqCmplA r lineB val => Sys2Proof.Machine.execIrqCmplA r lineB val s
  | .irqCmplE r val => Sys2Proof.Machine.execIrqCmplE r val s
  | .extIrqLevelChange n level => Sys2Proof.Machine.execExtIrqLevelChange n level s
  | .deepSleepEnter => Sys2Proof.Machine.execDeepSleepEnter s
  | .deepSleepExit badPend badEn badRest => Sys2Proof.Machine.execDeepSleepExit badPend badEn badRest s
  | .tapOpen r => Sys2Proof.Machine.execTapOpen r s
  | .tapClose r => Sys2Proof.Machine.execTapClose r s
  | .tapInfo r => Sys2Proof.Machine.execTapInfo r s
  | .tapPop r val ue => Sys2Proof.Machine.execTapPop r val ue s
  | .conversionEnd c smp => Sys2Proof.Machine.execConversionEnd c smp s
  | .hushWaitTimeout c n => Sys2Proof.Machine.execHushWaitTimeout c n s
  | .extrefLoss => Sys2Proof.Machine.execExtrefLoss s
  | .extrefReturn => Sys2Proof.Machine.execExtrefReturn s
  | .ringCycleTx ring1 inst pad => Sys2Proof.Machine.execRingCycleTx ring1 inst pad s
  | .ringCycleRx x => Sys2Proof.Machine.execRingCycleRx x s
  | .ringRequestRx => Sys2Proof.Machine.execRingRequestRx s
  | .ringResponseRx => Sys2Proof.Machine.execRingResponseRx s
  | .estopTxEnd => Sys2Proof.Machine.execEstopTxEnd s
  | .laneUp n => Sys2Proof.Machine.execLaneUp n s
  | .laneDown n => Sys2Proof.Machine.execLaneDown n s
  | .wrapEnd east => Sys2Proof.Machine.execWrapEnd east s
  | .masterElected id => Sys2Proof.Machine.execMasterElected id s
  | .timeLoss => Sys2Proof.Machine.execTimeLoss s
  | .ppsInEdge inst => Sys2Proof.Machine.execPpsInEdge inst s
  | .ppsLoss => Sys2Proof.Machine.execPpsLoss s
  | .ppsOut rise => Sys2Proof.Machine.execPpsOut rise s
  | .ringBarrierClear b => Sys2Proof.Machine.execRingBarrierClear b s
  | .ringRd r => Sys2Proof.Machine.execRingRd r s
  | .ringWr r => Sys2Proof.Machine.execRingWr r s
  | .ringCmd r => Sys2Proof.Machine.execRingCmd r s
  | .ringTset r => Sys2Proof.Machine.execRingTset r s
  | .ringTsetApply => Sys2Proof.Machine.execRingTsetApply s
  | .rtmo k => Sys2Proof.Machine.execRtmo k s
  | .lanenClr r n val => Sys2Proof.Machine.execLanenClr r n val s
  | .beaconTx intact => Sys2Proof.Machine.execBeaconTx intact s
  | .beaconRx b err => Sys2Proof.Machine.execBeaconRx b err s
  | .slotTx intact => Sys2Proof.Machine.execSlotTx intact s
  | .frameRx slot err f => Sys2Proof.Machine.execFrameRx slot err f s
  | .stopFrameTx => Sys2Proof.Machine.execStopFrameTx s
  | .stopRecognised highBefore start low => Sys2Proof.Machine.execStopRecognised highBefore start low s
  | .floorCycleEnd => Sys2Proof.Machine.execFloorCycleEnd s
  | .seekTimeout intact => Sys2Proof.Machine.execSeekTimeout intact s
  | .stuck => Sys2Proof.Machine.execStuck s
  | .stuckEnd => Sys2Proof.Machine.execStuckEnd s
  | .floorBarrierClear b => Sys2Proof.Machine.execFloorBarrierClear b s
  | .flrRd r => Sys2Proof.Machine.execFlrRd r s
  | .flrWr r => Sys2Proof.Machine.execFlrWr r s
  | .flrCmd r => Sys2Proof.Machine.execFlrCmd r s
  | .flrRtmo k => Sys2Proof.Machine.execFlrRtmo k s
  | .flrClr r val => Sys2Proof.Machine.execFlrClr r val s
  | .monitorReading vbat vin vsns ntc bias limited => Sys2Proof.Machine.execMonitorReading vbat vin vsns ntc bias limited s
  | .qualifyEnd => Sys2Proof.Machine.execQualifyEnd s
  | .prechargeTimeout => Sys2Proof.Machine.execPrechargeTimeout s
  | .fastTimeout => Sys2Proof.Machine.execFastTimeout s
  | .topoffEnd => Sys2Proof.Machine.execTopoffEnd s
  | .suspendEnd => Sys2Proof.Machine.execSuspendEnd s
  | .mpptScan => Sys2Proof.Machine.execMpptScan s
  | .scandone samples => Sys2Proof.Machine.execScandone samples s
  | .mpptStep => Sys2Proof.Machine.execMpptStep s
  | .batteryAbsentTimeout => Sys2Proof.Machine.execBatteryAbsentTimeout s
  | .inputPathChange vinMv vsysMv => Sys2Proof.Machine.execInputPathChange vinMv vsysMv s
  | .batteryPathChange batMv sysMv => Sys2Proof.Machine.execBatteryPathChange batMv sysMv s
  | .vinOv => Sys2Proof.Machine.execVinOv s
  | .pathFlt detail => Sys2Proof.Machine.execPathFlt detail s
  | .batRev => Sys2Proof.Machine.execBatRev s
  | .batRevHoldEnd => Sys2Proof.Machine.execBatRevHoldEnd s
  | .ntcOpen => Sys2Proof.Machine.execNtcOpen s
  | .ntcShort => Sys2Proof.Machine.execNtcShort s
  | .chgRestart r => Sys2Proof.Machine.execChgRestart r s
  | .xgo r val => Sys2Proof.Machine.execXgo r val s
  | .xdone rx => Sys2Proof.Machine.execXdone rx s
  | .sptCsFall mode3 => Sys2Proof.Machine.execSptCsFall mode3 s
  | .sptReadCmd sdi => Sys2Proof.Machine.execSptReadCmd sdi s
  | .sptWriteCmd sdi => Sys2Proof.Machine.execSptWriteCmd sdi s
  | .sptReadFrame => Sys2Proof.Machine.execSptReadFrame s
  | .sptWordRead => Sys2Proof.Machine.execSptWordRead s
  | .sptWriteFrame sdi => Sys2Proof.Machine.execSptWriteFrame sdi s
  | .sptWordApplied => Sys2Proof.Machine.execSptWordApplied s
  | .sptCsRise inside => Sys2Proof.Machine.execSptCsRise inside s
  | .i2caPointerSet addr ptr => Sys2Proof.Machine.execI2caPointerSet addr ptr s
  | .i2caWordWrite val => Sys2Proof.Machine.execI2caWordWrite val s
  | .i2caWordRead acked => Sys2Proof.Machine.execI2caWordRead acked s
  | .mgo r p val => Sys2Proof.Machine.execMgo r p val s
  | .recov lows => Sys2Proof.Machine.execRecov lows s
  | .mdone p how nbytes rx => Sys2Proof.Machine.execMdone p how nbytes rx s
  | .arblost p nbytes => Sys2Proof.Machine.execArblost p nbytes s
  | .i2cLineTimeout p sda nbytes => Sys2Proof.Machine.execI2cLineTimeout p sda nbytes s
  | .i2cCfgApply p => Sys2Proof.Machine.execI2cCfgApply p s
  | .uartCharRx samples => Sys2Proof.Machine.execUartCharRx samples s
  | .uartCharTx => Sys2Proof.Machine.execUartCharTx s
  | .uartRxd r => Sys2Proof.Machine.execUartRxd r s
  | .uartTxd r val => Sys2Proof.Machine.execUartTxd r val s
  | .uartCfgApply => Sys2Proof.Machine.execUartCfgApply s
  | .consoleRead frame => Sys2Proof.Machine.execConsoleRead frame s
  | .consoleWrite frame => Sys2Proof.Machine.execConsoleWrite frame s
  | .cto => Sys2Proof.Machine.execCto s
  | .timerTick n => Sys2Proof.Machine.execTimerTick n s
  | .start r n => Sys2Proof.Machine.execStart r n s
  | .stop r n => Sys2Proof.Machine.execStop r n s
  | .timerWriteLands n which => Sys2Proof.Machine.execTimerWriteLands n which s
  | .tbLocked => Sys2Proof.Machine.execTbLocked s
  | .tbLock => Sys2Proof.Machine.execTbLock s
  | .rtcOsc => Sys2Proof.Machine.execRtcOsc s
  | .rtcSecond => Sys2Proof.Machine.execRtcSecond s
  | .rtcSubRead r => Sys2Proof.Machine.execRtcSubRead r s
  | .set r => Sys2Proof.Machine.execSet r s
  | .cd => Sys2Proof.Machine.execCd s
  | .swover aonMv => Sys2Proof.Machine.execSwover aonMv s
  | .swback aonMv => Sys2Proof.Machine.execSwback aonMv s
  | .rtcRestart => Sys2Proof.Machine.execRtcRestart s
  | .timeSeed r => Sys2Proof.Machine.execTimeSeed r s
  | .deviceTimeSeed => Sys2Proof.Machine.execDeviceTimeSeed s
  | .kiln r => Sys2Proof.Machine.execKiln r s
  | .kilnDone weakA weakB missA missB endedAfter => Sys2Proof.Machine.execKilnDone weakA weakB missA missB endedAfter s
  | .otpMread r => Sys2Proof.Machine.execOtpMread r s
  | .otpScan r => Sys2Proof.Machine.execOtpScan r s
  | .proofRun r => Sys2Proof.Machine.execProofRun r s
  | .proofAbort r => Sys2Proof.Machine.execProofAbort r s
  | .proofDone sig sramFail poolFail => Sys2Proof.Machine.execProofDone sig sramFail poolFail s
  | .proofTimeout => Sys2Proof.Machine.execProofTimeout s
  | .extest cells => Sys2Proof.Machine.execExtest cells s
  | .samplePreload cells => Sys2Proof.Machine.execSamplePreload cells s
  | .highz => Sys2Proof.Machine.execHighz s
  | .bypass code => Sys2Proof.Machine.execBypass code s
  | .engdbg dr => Sys2Proof.Machine.execEngdbg dr s
  | .serOkRise serMv seraMv => Sys2Proof.Machine.execSerOkRise serMv seraMv s
  | .ilim n phase imon left => Sys2Proof.Machine.execIlim n phase imon left s
  | .prbsLock n locked errors => Sys2Proof.Machine.execPrbsLock n locked errors s
  | .i2caStopCondition odd stop => Sys2Proof.Machine.execI2caStopCondition odd stop s

end Sys2Proof.Machine
end

