-- ==== Sys2Proof/Machine/Idle.lean ====
section
/-! DEFINITION. What the block does in one timebase cycle when no command waits (R683, R445; log entry 1). -/

namespace Sys2Proof.Machine

open Sys2Proof

/-- The length of one timebase cycle, 1/25 000 000 s, in units of 2^-32 s / 390625. -/
abbrev cycleUnits : Nat := 67108864

/-- The most that a slew may change one cycle (R445: 100 ppm), in the same units. -/
abbrev slewMax : Nat := 6710

/-- Device time one cycle later: by the cycle's length (R683), with part of a slew that is still to apply (R445). -/
def tickClock (s : State) : Clock :=
  let part : Nat := min (Config.freeSlewStep s.fresh % (slewMax + 1)) s.clock.slew.natAbs
  let d : Int := if s.clock.slew < 0 then -(part : Int) else part
  let total := s.clock.frac + ((cycleUnits : Int) + d).toNat
  { s.clock with t := s.clock.t + BitVec.ofNat 64 (total / 390625), frac := total % 390625, slew := s.clock.slew - d }

/-- Where a rail's ramp stands, and its tracking source, as one cycle finds them: free values, which no command reports. -/
def foundMeas (f n : Nat) : Meas :=
  { phase := 0, ramp := Config.freeRamp (f + n), srcRamp := Config.freeRamp (f + 16 + n), srcSense := Config.freeSense (f + 16 + n)
    sense := Config.freeSense (f + n), imon := [], peak := 0, tmon := 0, vsys := 0, hist := [] }

/-- What one cycle finds at switching rail n, with the free value counter at f: whether the sense voltage found lies in the
power-good window of the reference (R123), 8 switching island cycles less of a period in which the current limit acted (R149),
and SWnn_FLT_N (R148). -/
def sampleRail (f : Nat) (s : State) (n : Nat) : State :=
  let x := s.rail n
  let c := (s.unit n).code.toNat
  let m := foundMeas f n
  s.setRail n { x with pg := (2 ≤ c && c ≤ 5) && inWindow s n (refCode s n m) m.sense.toNat, ilim := x.ilim - 8
                       fltn := Config.freeLevel (f + 32 + n) }

/-- What one cycle finds at LDO n with the free value counter at f: the power-good comparison of the output found while it
regulates, whose rise sets LDn_EVT.PGR and whose fall LDn_EVT.PGF (R157), and its current limit (R687). -/
def sampleLdo (f : Nat) (s : State) (n : Nat) : State :=
  let x := s.ldo n
  let c := (s.unit (uLd n)).code
  let pg := if c == 4 then ldoGood s n (Config.freeSense (f + 48 + n)) else x.pg
  let s := s.setLdo n { x with pg := pg, ilim := (c == 2 || c == 4 || c == 6) && Config.freeLevel (f + 56 + n) }
  if x.pg == pg then s else s.orReg (0x1405 + 0x20 * n) (if pg then 1 else 2)

/-- A junction temperature that crosses no threshold: crossings are reported by DIE_WARN, DIE_SHUT and FAULT_CONDITION_CLEAR
(R664). -/
def dieFits (s : State) (d : Int) : Bool :=
  decide ((s.reg 0x0805).toNat ≤ d) == s.present 2 0 && (if s.present 2 1 then decide (110 < d) else decide (d < 130))

/-- What one cycle finds on the balls and in the analogue blocks, where no command reports it (log entry 1): free levels. A
low of STOP_N that another party drives may end here (R186); its begin is STOP_N_FALL. RTC_SUB and the junction temperature move. -/
def sampleLevels (s : State) : State :=
  let d : Int := (Config.freeDie s.fresh).toInt
  let f := s.fresh
  let s := (List.range 8).foldl (sampleLdo f) ((List.range 16).foldl (sampleRail f) s)
  { s with fresh := s.fresh + 65, gpioIn := Config.freePins s.fresh, stopN := { s.stopN with low := s.stopN.low && Config.freeLevel (f + 64) }
           rtc := { s.rtc with sub := (Config.freeSub s.fresh).toNat }
           supply := { s.supply with dieC := if dieFits s d then d else s.supply.dieC } }

/-- The period boundaries of the measurement converters in one cycle (R387). -/
def convTicks (s : State) : State := (List.range 8).foldl convTick s

/-- One timebase cycle: the time advances, the levels are sampled, the converters' periods run, and the cycle of a cold stop is over (04_rails.md,
"Corner cases"). Before POR_RELEASE the time stands at 0 (R591) and nothing happens. -/
def idle (s : State) : State :=
  if s.boot.phase = .supply then s
  else settle (floorSync (kilnWatch (convTicks <| sampleLevels { s with clock := tickClock s, snap := none })))

end Sys2Proof.Machine
end

