-- ==== Sys2Proof/Machine/EngineCode.lean ====
section
/-! DEFINITION. The encoding of the engines' instructions (09_recipe_engines.md, R308, R309, R311), and what an engine's code
space holds. The commands carry an instruction with its fields already taken; these definitions say which words spell it. -/

namespace Sys2Proof.Machine

open Sys2Proof

/-- The instructions of the table "ALU functions" (op 0x0); MUL, DIV and DIVU take an even d (R309). -/
def decodeAlu (e : Fin 4) (d s : BitVec 4) (fn : Nat) : Option Instr :=
  let even := d.toNat % 2 = 0
  match fn with
  | 0x0 => some (.add e d s)
  | 0x1 => some (.sub e d s)
  | 0x2 => some (.adds e d s)
  | 0x3 => some (.subs e d s)
  | 0x4 => some (.and e d s)
  | 0x5 => some (.or e d s)
  | 0x6 => some (.xor e d s)
  | 0x7 => some (.mov e d s)
  | 0x8 => some (.cmp e d s)
  | 0x9 => some (.lsl e d s)
  | 0xA => some (.lsr e d s)
  | 0xB => some (.asr e d s)
  | 0xC => some (.ror e d s)
  | 0xD => if even then some (.mul e d s) else none
  | 0xE => if even then some (.div e d s) else none
  | 0xF => if even then some (.divu e d s) else none
  | _ => none

/-- The instructions of the table "Unary and control functions" (op 0x1). -/
def decodeUnary (e : Fin 4) (d s : BitVec 4) (fn : Nat) : Option Instr :=
  match fn with
  | 0x0 => some (.neg e d s)
  | 0x1 => some (.negs e d s)
  | 0x2 => some (.not e d s)
  | 0x3 => if d.toNat % 2 = 0 then some (.mulu e d s) else none
  | 0x4 => if s = 0 then some (.mff e d) else none
  | 0x5 => if d = 0 then some (.mtf e s) else none
  | 0x6 => if s = 0 then some (.claim e d) else none
  | 0x7 => if d = 0 then some (.sig e s) else none
  | 0x8 => if d = 0 ∧ s = 0 then some (.kick e) else none
  | 0x9 => if d = 0 ∧ s = 0 then some (.sleep e) else none
  | 0xA => if d = 0 ∧ s = 0 then some (.reti e) else none
  | 0xB => if d = 0 ∧ s = 0 then some (.retx e) else none
  | 0xC => if d = 0 ∧ s = 0 then some (.retn e) else none
  | _ => none

/-- The jumps (op 0x9), with the second word where there is one. -/
def decodeJump (e : Fin 4) (sub s k : BitVec 4) (w2 : Word) : Option Instr :=
  match sub.toNat with
  | 0x0 => if s = 0 ∧ k = 0 then some (.jmp e w2) else none
  | 0x1 => if s = 0 ∧ k = 0 then some (.call e w2) else none
  | 0x2 => if k = 0 then some (.jr e s) else none
  | 0x3 => if k = 0 then some (.callr e s) else none
  | _ => none

/-- The instruction that the words `w` and, for a two-word form, `w2` spell for engine e; none where they are illegal (R308,
R309). -/
def decodeWords (e : Fin 4) (w w2 : Word) : Option Instr :=
  let d : BitVec 4 := (w >>> 8).setWidth 4
  let s : BitVec 4 := (w >>> 4).setWidth 4
  let k : BitVec 4 := w.setWidth 4
  let imm : Byte := w.setWidth 8
  match field w 15 12 with
  | 0x0 => decodeAlu e d s k.toNat
  | 0x1 => decodeUnary e d s k.toNat
  | 0x2 => some (.addi e d imm)
  | 0x3 => some (.cmpi e d imm)
  | 0x4 => some (.ldi e d imm)
  | 0x5 => if imm = 0 then some (.ldl e d w2) else none
  | 0x6 => some (.ld e d s k)
  | 0x7 => some (.st e d s k)
  | 0x8 => if d = 0xF then none else some (.bcc e d imm)
  | 0x9 => decodeJump e d s k w2
  | 0xA => some (.wait e d s k)
  | 0xB =>
    match k.toNat with
    | 0 => some (.commitInstr e d s)
    | 1 => some (.abortInstr e d s)
    | _ => none
  | 0xC =>
    if 13 < s.toNat then none
    else match k.toNat with
      | 0 => some (.ureqSetv e d s)
      | 1 => some (.ureqOn e d s)
      | 2 => some (.ureqOff e d s)
      | _ => none
  | 0xD => if d = 0 then some (.trap e imm) else none
  | _ => none

/-- The words begin a two-word form: LDL, JMP and CALL (R308). -/
def twoWords (w : Word) : Bool := w &&& 0xF0FF == 0x5000 || w == 0x9000 || w == 0x9100

/-- What the words spell, ILLEGAL for words that spell nothing (R309). -/
def decodeEng (e : Fin 4) (w w2 : Word) : Instr := (decodeWords e w w2).getD (.illegal e)

/-- A first word from its four fields. -/
def opWord (op : Nat) (a b c : BitVec 4) : Word := wd (4096 * op + 256 * a.toNat + 16 * b.toNat + c.toNat)

/-- A first word with an eight-bit field. -/
def opImm (op : Nat) (a : BitVec 4) (imm : Byte) : Word := wd (4096 * op + 256 * a.toNat + imm.toNat)

/-- The words of an engine's instruction (R308); none for a command that is no instruction or that no words spell (R309). -/
def encodeEng : Instr → Option (List Word)
  | .add _ d s => some [opWord 0 d s 0x0]
  | .sub _ d s => some [opWord 0 d s 0x1]
  | .adds _ d s => some [opWord 0 d s 0x2]
  | .subs _ d s => some [opWord 0 d s 0x3]
  | .and _ d s => some [opWord 0 d s 0x4]
  | .or _ d s => some [opWord 0 d s 0x5]
  | .xor _ d s => some [opWord 0 d s 0x6]
  | .mov _ d s => some [opWord 0 d s 0x7]
  | .cmp _ d s => some [opWord 0 d s 0x8]
  | .lsl _ d s => some [opWord 0 d s 0x9]
  | .lsr _ d s => some [opWord 0 d s 0xA]
  | .asr _ d s => some [opWord 0 d s 0xB]
  | .ror _ d s => some [opWord 0 d s 0xC]
  | .mul _ d s => if d.toNat % 2 = 0 then some [opWord 0 d s 0xD] else none
  | .div _ d s => if d.toNat % 2 = 0 then some [opWord 0 d s 0xE] else none
  | .divu _ d s => if d.toNat % 2 = 0 then some [opWord 0 d s 0xF] else none
  | .neg _ d s => some [opWord 1 d s 0x0]
  | .negs _ d s => some [opWord 1 d s 0x1]
  | .not _ d s => some [opWord 1 d s 0x2]
  | .mulu _ d s => if d.toNat % 2 = 0 then some [opWord 1 d s 0x3] else none
  | .mff _ d => some [opWord 1 d 0 0x4]
  | .mtf _ s => some [opWord 1 0 s 0x5]
  | .claim _ d => some [opWord 1 d 0 0x6]
  | .sig _ s => some [opWord 1 0 s 0x7]
  | .kick _ => some [opWord 1 0 0 0x8]
  | .sleep _ => some [opWord 1 0 0 0x9]
  | .reti _ => some [opWord 1 0 0 0xA]
  | .retx _ => some [opWord 1 0 0 0xB]
  | .retn _ => some [opWord 1 0 0 0xC]
  | .addi _ d imm => some [opImm 2 d imm]
  | .cmpi _ d imm => some [opImm 3 d imm]
  | .ldi _ d imm => some [opImm 4 d imm]
  | .ldl _ d imm => some [opWord 5 d 0 0, imm]
  | .ld _ d s k => some [opWord 6 d s k]
  | .st _ d s k => some [opWord 7 d s k]
  | .bcc _ c off => if c = 0xF then none else some [opImm 8 c off]
  | .jmp _ t => some [0x9000, t]
  | .call _ t => some [0x9100, t]
  | .jr _ s => some [opWord 9 2 s 0]
  | .callr _ s => some [opWord 9 3 s 0]
  | .wait _ d s t => some [opWord 0xA d s t]
  | .commitInstr _ d s => some [opWord 0xB d s 0]
  | .abortInstr _ d s => some [opWord 0xB d s 1]
  | .ureqSetv _ d s => if 13 < s.toNat then none else some [opWord 0xC d s 0]
  | .ureqOn _ d s => if 13 < s.toNat then none else some [opWord 0xC d s 1]
  | .ureqOff _ d s => if 13 < s.toNat then none else some [opWord 0xC d s 2]
  | .trap _ imm => some [opImm 0xD 0 imm]
  | _ => none

/-- The engine whose instruction a command is; none for a command that is no instruction. -/
def engineOf (i : Instr) : Option (Fin 4) :=
  match i with
  | .add e _ _ | .sub e _ _ | .adds e _ _ | .subs e _ _ | .and e _ _ | .or e _ _ | .xor e _ _ | .mov e _ _ | .cmp e _ _
  | .lsl e _ _ | .lsr e _ _ | .asr e _ _ | .ror e _ _ | .mul e _ _ | .div e _ _ | .divu e _ _ | .neg e _ _ | .negs e _ _
  | .not e _ _ | .mulu e _ _ | .mff e _ | .mtf e _ | .claim e _ | .sig e _ | .kick e | .sleep e | .reti e | .retx e | .retn e
  | .addi e _ _ | .cmpi e _ _ | .ldi e _ _ | .ldl e _ _ | .ld e _ _ _ | .st e _ _ _ | .bcc e _ _ | .jmp e _ | .call e _
  | .jr e _ | .callr e _ | .wait e _ _ _ | .commitInstr e _ _ | .abortInstr e _ _ | .ureqSetv e _ _ | .ureqOn e _ _
  | .ureqOff e _ _ | .trap e _ | .illegal e => some e
  | _ => none

/-- The code word at an address: of recipe SRAM, or of a line in the cache; none where a line must be filled first (R311,
R339, R340). -/
def codeWord (s : State) (a : Word) : Option Word :=
  if a.toNat < 0x2000 then some (s.sramAt a.toNat)
  else (s.cache.find? fun l => l.base = a &&& 0xFFF0).map fun l => l.words.getD (a.toNat % 16) 0

/-- The instruction that engine e finds at its program counter; none while one of its words waits for a line fill. -/
def engNext (s : State) (e : Fin 4) : Option Instr :=
  let pc := (s.eng e.val).pc
  match codeWord s pc with
  | none => none
  | some w =>
    if twoWords w then (codeWord s (pc + 1)).map (decodeEng e w) else some (decodeEng e w 0)

end Sys2Proof.Machine
end

