-- ==== Sys2Proof/Safety.lean ====
section
/-! DEFINITION. What a safe run is, and the words in which statements about the block are made: what follows every
command, what an engine's instruction leaves, who may make an access, and the canonical form of the state. -/

namespace Sys2Proof.Safety

open Sys2Proof Sys2Proof.Machine

-- runs

/-- State `t` is reached from `s` by steps that each answer a next state. -/
inductive Reaches : State → State → Prop
  | refl (s : State) : Reaches s s
  | step (s m t : State) : Machine.step s = .next m → Reaches m t → Reaches s t

/-- A safe state: no run from it ends in a fault or a refusal, whatever commands wait. -/
def Safe (s : State) : Prop := ∀ t, Reaches s t → ∃ u, Machine.step t = .next u

-- the canonical form

/-- The sparse maps that hold registers, memories and the state of units are in canonical form: keys strictly rise, and no
default value is listed. The draught is in ascending address order (R271), holds staged fields only (R265) and at most 512
entries (R268). -/
structure Canonical (s : State) : Prop where
  regs : Map.wf resetValue s.regs = true
  sram : Map.wf dZero s.sram = true
  units : Map.wf dUnit s.units = true
  reqs : Map.wf dReq s.reqs = true
  ledger : Map.wf dZero s.ledger = true
  log : Map.wf dZero s.log = true
  rails : Map.wf dRail s.rails = true
  ldos : Map.wf dLdo s.ldos = true
  sups : Map.wf dSup s.sups = true
  store : Map.wf dZero s.store = true
  seqTab : Map.wf dZero s.seqTab = true
  lcp : Map.wf dPort s.lcp = true
  slots : Map.wf dSlot s.slots = true
  flvl : Map.wf dLvl s.flvl = true
  fsrc : Map.wf dFSrc s.fsrc = true
  engs : Map.wf dEng s.engs = true
  timers : Map.wf dTimer s.timers = true
  taps : Map.wf dTap s.mea.taps = true
  lanes : Map.wf dLane s.ring.lanes = true
  gens : Map.wf dGen9 s.mea.gen = true
  heldR : Map.wf dNat s.mea.heldR = true
  heldS : Map.wf dNat s.mea.heldS = true
  convs : Map.wf dConv s.mea.convs = true
  otpMaps : Map.wf dZero s.otp.lowA = true ∧ Map.wf dZero s.otp.highA = true ∧ Map.wf dZero s.otp.lowB = true ∧
    Map.wf dZero s.otp.highB = true ∧ Map.wf dZero s.otp.sensed = true ∧ Map.wf dZero s.otp.shown = true
  draught : s.draught.Pairwise fun x y => x.addr < y.addr
  staged : ∀ e ∈ s.draught, (holderOf e.addr).isSome = true
  room : s.draught.length ≤ 512

-- what follows every command

/-- What follows a command whose own effect left `m`: the router takes in the live assertions and presents anew, and an
engine that sleeps or waits may wake (R326, R328, R351, R361); what occurrences hold that wait for the collector is held
(R286). Nothing else differs, and neither an enable, a claim, a hold nor a doorbell's pending bit does. -/
structure Follows (m t : State) : Prop where
  rest : t = { m with irq := t.irq, units := t.units, engs := t.engs }
  enables : t.irq.en = m.irq.en
  claims : t.irq.clm = m.irq.clm
  holds : t.irq.holds = m.irq.holds
  asleep : t.irq.asleep = m.irq.asleep
  saved : t.irq.saved = m.irq.saved
  waiting : t.irq.asleep = false → t.irq.late = lateHeld m
  doorbells : ∀ n, 0x100 ≤ n → t.irq.pend.getLsbD n = m.irq.pend.getLsbD n
  units : ∀ n, ¬(0x38 ≤ n ∧ n ≤ 0x3B) → t.unit n = m.unit n
  engine : ∀ n, n < 4 → (m.unit (uEng n)).code ≠ 2 → (m.unit (uEng n)).code ≠ 3 →
    t.unit (uEng n) = m.unit (uEng n) ∧ t.eng n = m.eng n
  sleeper : ∀ n, n < 4 → t.unit (uEng n) = m.unit (uEng n) ∨ t.unit (uEng n) = { m.unit (uEng n) with code := 1 }
  others : ∀ n, 4 ≤ n → t.eng n = m.eng n

/-- The command answers a next state, which is `m` with what follows every command. -/
def Leaves (c : Instr) (s m : State) : Prop := ∃ t, Machine.exec c s = .next t ∧ Follows m t

-- engines

/-- A breakpoint that is enabled names engine n's next instruction, and the engine was not just resumed there. -/
def atBreakpoint (s : State) (n : Nat) : Bool :=
  let a := 0x2400 + 0x20 * n
  !(s.eng n).skipBp &&
    ((bit (s.reg a) 2 && s.reg (a + 4) == (s.eng n).pc) || (bit (s.reg a) 3 && s.reg (a + 5) == (s.eng n).pc))

/-- Engine n goes on: RUNNING, not fenced, not halted, with no exception to take first, and no stop or halt requested. -/
def engineGoes (s : State) (n : Nat) : Bool :=
  (s.unit (0x38 + n)).code == 1 && !(s.unit (0x38 + n)).fenced && !(s.eng n).halted && (s.eng n).xcpt.isNone &&
    !(s.eng n).stopReq && !(s.eng n).haltReq

/-- An entry comes before engine n's next instruction (R330): a pending NMI outside an NMI handler, or, with I 1, in no
handler and no step, a source that the router presents to it. -/
def entryDue (s : State) (n : Nat) : Bool :=
  let e := s.eng n
  (e.nmipend && !e.nmiact) ||
    ((!s.irq.asleep && s.irq.eligible n != 0) && fI e.flags && !e.iact && !e.exc && !e.nmiact && !e.stepArm)

/-- Engine n executes its next instruction: it goes on, no entry comes first, and there is no breakpoint. -/
def engineRuns (s : State) (n : Nat) : Bool := engineGoes s n && !entryDue s n && !atBreakpoint s n

/-- Engine n has executed one instruction of `len` words, which left its registers `x`: the lines it was fetched from become
the most recently used, and a STEP halts the engine again (R340, R346). Nothing else changes. -/
def executed (s : State) (n : Nat) (x : Eng) (len : Word := 1) : State :=
  let pc := (s.eng n).pc
  (if len = 2 then cacheTouch (cacheTouch s pc) (pc + 1) else cacheTouch s pc).setEng n (engFinish x)

/-- The next instruction of one word: N and Z from `r`, C and V as given, S set where `sat`; S and D are sticky, and I
stays (R305, R306). -/
def flagged (x : Eng) (r : Word) (c v sat : Bool) : Eng :=
  { x with pc := x.pc + 1
           flags := mkFlags r.msb (r == 0) c v (fS x.flags || sat) (fD x.flags) (fI x.flags) }

/-- The exact result lies outside a signed word. -/
def outside (x : Int) : Bool := decide (x < -32768 ∨ 32767 < x)

/-- The exact result held to the range of a signed word (R314). -/
def held (x : Int) : Word := BitVec.ofInt 16 (max (-32768) (min 32767 x))

/-- The saved flags word that a return restores: N, Z, C, V and I as saved, S and D joined with the present ones
(R331). -/
def restored (saved : Word) (f : EFlags) : EFlags :=
  mkFlags (bit saved 0) (bit saved 1) (bit saved 2) (bit saved 3) (bit saved 4 || fS f) (bit saved 5 || fD f) (bit saved 6)

/-- Engine n has raised ILLEGAL at its present instruction: the exception and its occurrence wait for the collector, and
ENGn_ST.CAUSE reads 1; in a handler of an exception or NMI it is a double fault instead, and the engine is FAULTED with
CAUSE 5 (R309, R334, R335). -/
def illegalState (s : State) (n : Nat) : State :=
  let x := s.eng n
  if x.exc || x.nmiact then
    (((executed s n x).setCode (0x38 + n) 0xF).setReg (0x2000 + 0x40 * n) 0x0500).occur 7 (8 * n + 4) 0
  else
    ((executed s n { x with xcpt := some (.illegal, false) }).setReg (0x2000 + 0x40 * n) 0x0100).occur 7 (8 * n) 0

-- resets

/-- What a chip reset leaves (R25, R26, R62, R81, R192, R193, R251, R270, R274, R279, R293, R296, R394, R591): every unit OFF with
GEN 0, the retention domain, the RTC island, the timebase and the record store kept, every other register at its reset
value, the draught empty and no requester with a command, and the cold stop's cause recorded. Occurrences that wait are noted in
the retention domain first, or wait with the cold stop's entry for the start's RESET entry (log entry 28). -/
structure ChipReset (s t : State) (cause : RstCause) (bits : Word) : Prop where
  boot : t.boot = { phase := .otpSensing, reset := some cause, fromPor := s.boot.fromPor && beforeLoad s.boot.phase,
                    stopDue := if logStarted s then [] else s.boot.stopDue ++ [0x01F7] }
  queue : t.pending = s.pending
  /-- DIE_WARN follows FLT_TWARN's reset value (R688) -/
  warning : t.present 2 0 = decide (0x5F ≤ s.supply.dieC)
  occs : ∃ w, t.occs = (if logStarted s then [] else s.occs) ++ w ∧
    w.map (fun o => (o.cls, o.src)) = if !s.present 2 0 && decide (0x5F ≤ s.supply.dieC) then [(2, 0)] else []
  units : ∀ n, t.unit n = {}
  kept : ∀ a, keptOverReset a = true → a ≠ 0x002E → ¬(0x0C00 ≤ a ∧ a ≤ 0x0C06) → a ≠ 0x1604 → a ≠ 0x6800 →
    (logStarted s = true → s.occs ≠ [] → ¬(0x0810 ≤ a ∧ a < 0x0860)) → t.reg a = s.reg a
  others : ∀ a, keptOverReset a = false → t.reg a = resetValue a
  reason : t.reg 0x002E = s.reg 0x002E ||| bits
  stop : t.reg 0x1604 = 0x01F7
  draught : t.draught = [] ∧ t.holders = []
  commits : t.commitNo = s.commitNo ∧ t.ledger = s.ledger
  requesters : ∀ r, t.req r = {}
  table : t.seqTab = s.seqTab ∧ t.seq = {}
  time : t.clock = { s.clock with seed := [] } ∧ t.rtc = s.rtc
  records : t.store = s.store ∧ t.storeSeq = s.storeSeq ∧ t.recsDue = s.recsDue
  classes : logStarted s = false ∨ s.occs = [] → t.unack = s.unack ∧ t.errnHold = s.errnHold
  sources : logStarted s = false ∨ s.occs = [] →
    ∀ k, (t.flt k).count = (s.flt k).count ∧ (t.flt k).pend = (s.flt k).pend
  engines : ∀ n, t.eng n = {}

-- faults

/-- The condition of a source becomes present: PRESENT reads 1, and one occurrence waits for the collector (R247;
07_fault_handling.md, "How fault collection works"). -/
def raised (s : State) (cls src : Nat) : State :=
  (s.setFlt (256 * cls + src) { s.flt (256 * cls + src) with present := true }).occur cls src 0

/-- The condition of a source is absent: TRANSIENT sets where PEND is 1, and PEND and COUNT stay (R247). -/
def cleared (s : State) (cls src : Nat) : State :=
  let f := s.flt (256 * cls + src)
  if f.present then s.setFlt (256 * cls + src) { f with present := false, transient := f.transient || f.pend } else s

/-- A condition that is present exactly where `on`. -/
def follows (s : State) (cls src : Nat) (on : Bool) : State :=
  if on then (if s.present cls src then s else raised s cls src) else cleared s cls src

/-- The junction temperature reads `c` °C: DIE_WARN is present from FLT_TWARN on (R232), a kiln whose conditions fail is
to end (R626), and at 110 °C, the end of the shutdown threshold's tolerance, DIE_SHUT is over (R664). -/
def readsDie (s : State) (c : Int) : State :=
  let m := follows (kilnWatch { s with supply := { s.supply with dieC := c } }) 2 0 (decide ((s.reg 0x0805).toNat ≤ c))
  if c ≤ 110 then cleared m 2 1 else m

/-- Thermal shutdown: a cold stop at detection, whose occurrence names it, with the charger and a kiln judged anew (R237, R518,
R626). -/
def shutsDown (s : State) : State :=
  let t := coldStop s 2 0x1F fun _ => false
  chgJudge (kilnWatch ((t.setFlt 0x201 { t.flt 0x201 with present := true }).occur 2 1 0 (some (t.reg 0x1604))))

/-- The collector takes occurrences: from the load phase on, and not while a chip reset is in force (R296). -/
def collecting (s : State) : Bool :=
  (match s.boot.phase with
    | .load | .ready | .running | .testHold => true
    | _ => false) && s.boot.reset.isNone

-- accesses

/-- Requester r can make accesses, and nothing in force rejects them all: not in the load phase (R83), no proof (R634),
the RTC not locked (R610). -/
def served (s : State) (r : Req) : Bool :=
  mayAccess s r && s.boot.phase != .load && proofRun s == 0 && !s.rtc.lock

/-- The interface or engine of requester r is fenced (R242). -/
def reqFenced (s : State) (r : Req) : Bool :=
  match r.unit with
  | some u => (s.unit u).fenced
  | none => false

/-- Requester r's accesses are served, and its interface is not fenced. -/
def admitted (s : State) (r : Req) : Bool := served s r && !reqFenced s r

/-- A command that r writes to CMD_OP is executed: the access is admitted, its bank is not PENDING (R44), and CMD_SEQ is not
that of its last completed command (R45). -/
def commandable (s : State) (r : Req) : Bool :=
  admitted s r && !bankPending s r && (s.req r).last != some (mget dZero (s.req r).bank 1)

/-- The register write that a command makes: its requester, address and word. -/
def writes (s : State) : Instr → Option (Req × Nat × Word)
  | .registerWrite r a v => some (r, a.toNat, v)
  | .stagedWrite r a v => if (holderOf a.toNat).isSome then some (r, a.toNat, v) else none
  | .hiWrite r a v => if pairHi a.toNat then some (r, a.toNat, v) else none
  | .loWrite r a v => if pairLo a.toNat then some (r, a.toNat, v) else none
  | .glbReset r => some (r, 0x0002, 0xA5C3)
  | .seqWinW3Write r v => some (r, 0x1614, v)
  | .seqWinSelWrite r v => some (r, 0x1610, v)
  | .fltAck r v => some (r, 0x0802, v)
  | .fltScnt r v => some (r, 0x080B, v)
  | .logRdptrWrite r v => some (r, 0x0C03, v)
  | .inv r => some (r, 0x2100, 1)
  | .dbgHalt r e => some (r, 0x2400 + 0x20 * e.val, (s.reg (0x2400 + 0x20 * e.val) &&& 0x000C) ||| 1)
  | .dbgResume r e => some (r, 0x2400 + 0x20 * e.val, s.reg (0x2400 + 0x20 * e.val) &&& 0x000C)
  | .step r e => some (r, 0x2400 + 0x20 * e.val, (s.reg (0x2400 + 0x20 * e.val) &&& 0x000D) ||| 2)
  | .irqPendWrite r w v => some (r, 0x1C00 + w.val, v)
  | .irqDoorbell r v => some (r, 0x1D45, v)
  | .irqCmplA r b v => some (r, if b then 0x1D43 else 0x1D42, v)
  | .irqCmplE r v => some (r, 0x1D44, v)
  | .tapPop r v _ => some (r, 0x3103, v)
  | .lanenClr r n v => some (r, 0x4047 + 0x10 * n.val, v)
  | .flrClr r v => some (r, 0x480E, v)
  | .xgo r v => some (r, 0x5014, v)
  | .mgo r p v => some (r, if p = .a then 0x520A else 0x530A, v)
  | .uartTxd r v => some (r, 0x5405, v)
  | .start r n => some (r, 0x5803 + 0x10 * n.val, 1)
  | .stop r n => some (r, 0x5803 + 0x10 * n.val, 2)
  | .set r => some (r, 0x5901, 1)
  | _ => none

/-- The operation that a mailbox command asks for: its requester and its code. -/
def mailbox : Instr → Option (Req × Word)
  | .unitInspect r => some (r, 0x0101)
  | .unitGive r => some (r, 0x0102)
  | .unitTake r => some (r, 0x0103)
  | .unitRelease r => some (r, 0x0104)
  | .unitFence r => some (r, 0x0105)
  | .commit r => some (r, 0x0201)
  | .abort r => some (r, 0x0202)
  | .draughtRead r => some (r, 0x0203)
  | .logWrite r => some (r, 0x0204)
  | .seqPowerOn r => some (r, 0x0301)
  | .seqShutdown r => some (r, 0x0302)
  | .seqColdStop r => some (r, 0x0303)
  | .fltInject r => some (r, 0x0401)
  | .fltStoreErase r => some (r, 0x0402)
  | .tapOpen r => some (r, 0x0501)
  | .tapClose r => some (r, 0x0502)
  | .tapInfo r => some (r, 0x0503)
  | .ringRd r => some (r, 0x0601)
  | .ringWr r => some (r, 0x0602)
  | .ringCmd r => some (r, 0x0603)
  | .ringTset r => some (r, 0x0604)
  | .flrRd r => some (r, 0x0701)
  | .flrWr r => some (r, 0x0702)
  | .flrCmd r => some (r, 0x0703)
  | .chgRestart r => some (r, 0x0801)
  | .kiln r => some (r, 0x0901)
  | .otpMread r => some (r, 0x0902)
  | .otpScan r => some (r, 0x0903)
  | .proofRun r => some (r, 0x0A01)
  | .proofAbort r => some (r, 0x0A02)
  | .timeSeed r => some (r, 0x0B01)
  | _ => none

end Sys2Proof.Safety
end

