-- ==== Sys2Proof/Certificates/Slice0/Obligations.lean ====
section
/-! DEFINITION. Statements about the block, for the provers. In each, `s` is any state, `Leaves c s m` says that the command
`c` answers a next state, which is `m` with what follows every command (Safety.lean), and a requester's command is taken
where its access is `admitted` or, for a mailbox command, `commandable`. -/

open Sys2Proof Sys2Proof.Machine Sys2Proof.Safety

-- engines (09_recipe_engines.md)

/-- ADD, SUB, ADDS, SUBS, CMP, NEG, NEGS, ADDI and CMPI: the result in g(d), or none for CMP and CMPI, and the flags
(R305 to R307, R310, R313, R314). MUL, MULU, DIV and DIVU with an even d: the pair g(d), g(d + 1) from both operands as
they were; a zero divisor sets D, and with DZTRAP raises DIVZERO after the results, in a handler of an exception or NMI
as a double fault (R315, R316, R319, R334, R335). -/
def Obligations.EngineArithmetic : Prop :=
  (∀ (s : State) (e : Fin 4) (d r : BitVec 4) (imm : Byte), engineRuns s e = true →
    let x := s.eng e
    let a := x.greg d.toNat
    let b := x.greg r.toNat
    let i : Word := imm.signExtend 16
    let carry (p q : Word) : Bool := decide (65536 ≤ p.toNat + q.toNat)
    let borrow (p q : Word) : Bool := decide (p.toNat < q.toNat)
    Leaves (.add e d r) s (executed s e
      ((flagged x (a + b) (carry a b) (outside (a.toInt + b.toInt)) false).setG d.toNat (a + b))) ∧
    Leaves (.sub e d r) s (executed s e
      ((flagged x (a - b) (borrow a b) (outside (a.toInt - b.toInt)) false).setG d.toNat (a - b))) ∧
    Leaves (.adds e d r) s (executed s e
      ((flagged x (held (a.toInt + b.toInt)) (carry a b) (outside (a.toInt + b.toInt))
        (outside (a.toInt + b.toInt))).setG d.toNat (held (a.toInt + b.toInt)))) ∧
    Leaves (.subs e d r) s (executed s e
      ((flagged x (held (a.toInt - b.toInt)) (borrow a b) (outside (a.toInt - b.toInt))
        (outside (a.toInt - b.toInt))).setG d.toNat (held (a.toInt - b.toInt)))) ∧
    Leaves (.cmp e d r) s (executed s e (flagged x (a - b) (borrow a b) (outside (a.toInt - b.toInt)) false)) ∧
    Leaves (.neg e d r) s (executed s e
      ((flagged x (0 - b) (decide (b ≠ 0)) (decide (b = 0x8000)) false).setG d.toNat (0 - b))) ∧
    Leaves (.negs e d r) s (executed s e
      ((flagged x (if b = 0x8000 then 0x7FFF else 0 - b) (decide (b ≠ 0)) (decide (b = 0x8000))
        (decide (b = 0x8000))).setG d.toNat (if b = 0x8000 then 0x7FFF else 0 - b))) ∧
    Leaves (.addi e d imm) s (executed s e
      ((flagged x (a + i) (carry a i) (outside (a.toInt + i.toInt)) false).setG d.toNat (a + i))) ∧
    Leaves (.cmpi e d imm) s (executed s e (flagged x (a - i) (borrow a i) (outside (a.toInt - i.toInt)) false))) ∧
  (∀ (s : State) (e : Fin 4) (d r : BitVec 4), engineRuns s e = true → d.toNat % 2 = 0 →
    let x := s.eng e
    let a := x.greg d.toNat
    let b := x.greg r.toNat
    let f := x.flags
    let pair (lo hi : Word) (n z v div0 : Bool) : Eng :=
      { (x.setG d.toNat lo).setG (d.toNat + 1) hi with
        pc := x.pc + 1, flags := mkFlags n z false v (fS f) (fD f || div0) (fI f) }
    let p := a.toInt * b.toInt
    let u := a.toNat * b.toNat
    Leaves (.mul e d r) s (executed s e
      (pair (BitVec.ofInt 16 p) (BitVec.ofInt 16 (p / 65536)) (decide (p < 0)) (decide (p = 0)) false false)) ∧
    Leaves (.mulu e d r) s (executed s e
      (pair (wd u) (wd (u / 65536)) (decide (2147483648 ≤ u)) (decide (u = 0)) false false)) ∧
    (b ≠ 0 →
      Leaves (.div e d r) s (executed s e
        (pair (BitVec.ofInt 16 (a.toInt.tdiv b.toInt)) (BitVec.ofInt 16 (a.toInt.tmod b.toInt))
          (BitVec.ofInt 16 (a.toInt.tdiv b.toInt)).msb (decide ((a.toInt.tdiv b.toInt) = 0))
          (decide (a = 0x8000 ∧ b = 0xFFFF)) false)) ∧
      Leaves (.divu e d r) s (executed s e
        (pair (wd (a.toNat / b.toNat)) (wd (a.toNat % b.toNat)) (decide (32768 ≤ a.toNat / b.toNat))
          (decide (a.toNat < b.toNat)) false false))) ∧
    (b = 0 → bit (s.reg (0x2001 + 0x40 * e)) 1 = false →
      Leaves (.div e d r) s (executed s e
        (pair (if 0x8000 ≤ a.toNat then 0x8000 else 0x7FFF) a (decide (0x8000 ≤ a.toNat)) false false true)) ∧
      Leaves (.divu e d r) s (executed s e (pair 0xFFFF a true false false true))) ∧
    -- with DZTRAP 1 the results are written, and DIVZERO waits for the collector, or it is a double fault (R316, R334, R335)
    (b = 0 → bit (s.reg (0x2001 + 0x40 * e)) 1 = true →
      let signed := pair (if 0x8000 ≤ a.toNat then 0x8000 else 0x7FFF) a (decide (0x8000 ≤ a.toNat)) false false true
      let unsigned := pair 0xFFFF a true false false true
      let st := 0x2000 + 0x40 * e.val
      let raises (y : Eng) : State :=
        ((executed s e { y with xcpt := some (.divzero, false) }).setReg st 0x0300).occur 7 (8 * e + 2) 0
      let double (y : Eng) : State :=
        (((executed s e y).setCode (0x38 + e) 0xF).setReg st 0x0500).occur 7 (8 * e + 4) 0
      (x.exc = false → x.nmiact = false →
        Leaves (.div e d r) s (raises signed) ∧ Leaves (.divu e d r) s (raises unsigned)) ∧
      (x.exc = true ∨ x.nmiact = true →
        Leaves (.div e d r) s (double signed) ∧ Leaves (.divu e d r) s (double unsigned))))

/-- AND, OR, XOR, MOV and NOT set N and Z and leave C and V; LDI and LDL change no flag; MFF reads the flags word, MTF
writes it (R305, R310). LSL, LSR, ASR and ROR for every amount (R317, R318): C is the last bit shifted out, bit 16 of
the exact value of a left shift, and the bit below the last for a right shift. -/
def Obligations.EngineLogicAndShifts : Prop :=
  (∀ (s : State) (e : Fin 4) (d r : BitVec 4) (imm : Byte) (w : Word), engineRuns s e = true →
    let x := s.eng e
    let a := x.greg d.toNat
    let b := x.greg r.toNat
    let logic (v : Word) : State := executed s e ((flagged x v (fC x.flags) (fV x.flags) false).setG d.toNat v)
    Leaves (.and e d r) s (logic (a &&& b)) ∧
    Leaves (.or e d r) s (logic (a ||| b)) ∧
    Leaves (.xor e d r) s (logic (a ^^^ b)) ∧
    Leaves (.mov e d r) s (logic b) ∧
    Leaves (.not e d r) s (logic (~~~b)) ∧
    Leaves (.ldi e d imm) s (executed s e { x.setG d.toNat (imm.signExtend 16) with pc := x.pc + 1 }) ∧
    Leaves (.ldl e d w) s (executed s e { x.setG d.toNat w with pc := x.pc + 2 } 2) ∧
    Leaves (.mff e d) s (executed s e { x.setG d.toNat (x.flags.setWidth 16) with pc := x.pc + 1 }) ∧
    Leaves (.mtf e r) s (executed s e { x with flags := b.setWidth 7, pc := x.pc + 1 })) ∧
  (∀ (s : State) (e : Fin 4) (d r : BitVec 4), engineRuns s e = true →
    let x := s.eng e
    let a := x.greg d.toNat
    let n := (x.greg r.toNat).toNat
    let shifted (v : Word) (c : Bool) : State := executed s e ((flagged x v c false false).setG d.toNat v)
    Leaves (.lsl e d r) s (shifted (wd (a.toNat * 2 ^ n))
      (if n = 0 then fC x.flags else (a.toNat * 2 ^ n).testBit 16)) ∧
    Leaves (.lsr e d r) s (shifted (wd (a.toNat / 2 ^ n))
      (if n = 0 then fC x.flags else a.toNat.testBit (n - 1))) ∧
    Leaves (.asr e d r) s (shifted (BitVec.ofInt 16 (a.toInt / 2 ^ n))
      (if n = 0 then fC x.flags else decide ((a.toInt / 2 ^ (n - 1)) % 2 = 1))) ∧
    Leaves (.ror e d r) s (shifted (a.rotateRight (n % 16))
      (if n % 16 = 0 then fC x.flags else (a.rotateRight (n % 16)).msb)))

/-- Bcc by the table of conditions, JMP, CALL, JR and CALLR (R309, R311, R312). What rests on log entry 59 is this
model's choice or inference. -/
def Obligations.EngineControlFlow : Prop :=
  ∀ (s : State) (e : Fin 4) (cond : BitVec 4) (off : Byte) (r : BitVec 4) (target : Word), engineRuns s e = true →
    let x := s.eng e
    let n := fN x.flags
    let z := fZ x.flags
    let c := fC x.flags
    let v := fV x.flags
    let taken : List Bool := [z, !z, c, !c, n, !n, v, !v, !c && !z, c || z, n == v, n != v, !z && n == v,
      z || n != v, true]
    (∀ t, taken[cond.toNat]? = some t →
      Leaves (.bcc e cond off) s (executed s e
        { x with pc := if t then x.pc + 1 + off.signExtend 16 else x.pc + 1 })) ∧
    Leaves (.jmp e target) s (executed s e { x with pc := target } 2) ∧
    Leaves (.call e target) s (executed s e { x.setG 15 (x.pc + 2) with pc := target } 2) ∧
    Leaves (.jr e r) s (executed s e { x with pc := x.greg r.toNat }) ∧
    Leaves (.callr e r) s (executed s e { x.setG 15 (x.pc + 1) with pc := x.greg r.toNat })

/-- LD and ST (R232, R311, R320): recipe SRAM, where a read meets no error, a corrected one or an uncorrectable one (log
entry 78); a rejected access, which leaves rd and memory as they were, records its code and does not trap; and an
accepted one at any address, which is the engine's own access. What rests on log entries 38 and 78 is this model's
choice or inference. -/
def Obligations.EngineLoadsAndStores : Prop :=
  ∀ (s : State) (e : Fin 4) (d r k : BitVec 4), engineRuns s e = true →
    let x := s.eng e
    let a := ((x.greg r.toNat).toNat + k.toNat) % 65536
    let next : Eng := { x with pc := x.pc + 1 }
    let found := (cacheTouch s x.pc).setEng e next
    let q := s.req (.engine e)
    (proofRun s = 0 → 0x8000 ≤ a → a < 0xA000 →
      let read (v : Word) : State := { executed s e (next.setG d.toNat v) with fresh := s.fresh + 1 }
      let ecc := Config.freeEcc s.fresh
      Leaves (.ld e d r k) s
        (if ecc = 2 then (read (Config.freeEccWord s.fresh)).occur 8 1 0
         else if ecc = 1 then (read (s.sramAt (a - 0x8000))).occur 8 0 0
         else read (s.sramAt (a - 0x8000))) ∧
      Leaves (.st e d r k) s ((executed s e next).setSram (a - 0x8000) (x.greg d.toNat))) ∧
    (readCode found (.engine e) a ≠ 0 →
      Leaves (.ld e d r k) s ((executed s e next).setReq (.engine e) { q with lasterr := readCode found (.engine e) a })) ∧
    (writeCode found (.engine e) a (x.greg d.toNat) ≠ 0 →
      Leaves (.st e d r k) s ((executed s e next).setReq (.engine e)
        { q with lasterr := writeCode found (.engine e) a (x.greg d.toNat) })) ∧
    (readCode found (.engine e) a = 0 →
      let y := readValue found (.engine e) a
      Leaves (.ld e d r k) s (engEnd (y.2.setEng e ((y.2.eng e).setG d.toNat y.1)) e)) ∧
    (writeCode found (.engine e) a (x.greg d.toNat) = 0 →
      Leaves (.st e d r k) s (engEnd (applyWrite found (.engine e) a (x.greg d.toNat)) e))

/-- WAIT, WAIT_TIMEOUT, SLEEP and KICK (R326, R328, R337): what each leaves at once, and whether the engine goes on.
CLAIM and SIG (R329, R353, R356, R362, R363). What rests on log entries 38, 60 and 77 is this model's choice or
inference. -/
def Obligations.EngineWaitsAndSignals : Prop :=
  ((∀ (s : State) (e : Fin 4) (d r l : BitVec 4), engineRuns s e = true →
    let x := s.eng e
    let src := x.greg r.toNat
    let touched := cacheTouch s x.pc
    (src ≠ 0xFFFF → 0x180 ≤ src.toNat →
      Leaves (.wait e d r l) s (executed s e { x.setG d.toNat 0x0101 with pc := x.pc + 1 })) ∧
    (src = 0xFFFF ∨ src.toNat < 0x180 →
      ∃ t, exec (.wait e d r l) s = .next t ∧
        Follows ((touched.setCode (0x38 + e) 3).setEng e
          { x with waiting := some (d, src, x.greg l.toNat), skipBp := false }) t ∧
        (if src.toNat < 0x180 ∧ t.irq.pend.getLsbD src.toNat then
          (t.unit (0x38 + e)).code = 1 ∧
            t.eng e = engFinish { x.setG d.toNat 0 with waiting := none, pc := x.pc + 1, skipBp := false }
         else (t.unit (0x38 + e)).code = 3 ∧ (t.eng e).pc = x.pc))) ∧
  (∀ (s : State) (e : Fin 4) (d : BitVec 4) (src limit : Word),
    let x := s.eng e
    (s.unit (0x38 + e)).code = 3 → (s.unit (0x38 + e)).fenced = false → x.halted = false →
    x.stopReq = false → x.haltReq = false → x.waiting = some (d, src, limit) → limit ≠ 0 →
      Leaves (.waitTimeout e) s ((s.setCode (0x38 + e) 1).setEng e
        (engFinish { x.setG d.toNat 1 with waiting := none, pc := x.pc + 1 }))) ∧
  (∀ (s : State) (e : Fin 4), engineRuns s e = true →
    let x := s.eng e
    (∃ t, exec (.sleep e) s = .next t ∧
      Follows (((cacheTouch s x.pc).setCode (0x38 + e) 2).setEng e { x with skipBp := false }) t ∧
      (if t.irq.pend &&& t.irq.enOf e ≠ 0 ∨ x.nmipend = true then
        (t.unit (0x38 + e)).code = 1 ∧ t.eng e = engFinish { x with pc := x.pc + 1, skipBp := false }
       else (t.unit (0x38 + e)).code = 2 ∧ (t.eng e).pc = x.pc)) ∧
    Leaves (.kick e) s (executed s e { x with wdog := s.reg (0x2003 + 0x40 * e), pc := x.pc + 1 }))) ∧
  (∀ (s : State) (e : Fin 4) (d r : BitVec 4), engineRuns s e = true →
    let x := s.eng e
    let q := irqSeen s
    let v := x.greg r.toNat
    (∀ n, n < 384 → (q.eligible e).getLsbD n = true → (∀ k, k < n → (q.eligible e).getLsbD k = false) →
      ∃ t, exec (.claim e d) s = .next t ∧ t.eng e = engFinish { x.setG d.toNat (wd n) with pc := x.pc + 1 } ∧
        (t.irq.clmOf e).getLsbD n = true ∧ t.irq.pend.getLsbD n = false ∧
        (∀ u, u ≠ e.val → t.irq.clmOf u = s.irq.awake.clmOf u) ∧
        t = { cacheTouch s x.pc with irq := t.irq, units := t.units, engs := t.engs }) ∧
    (q.eligible e = 0 →
      ∃ t, exec (.claim e d) s = .next t ∧
        t.eng e = engFinish { x.setG d.toNat
          (if mget dOff q.taken e = true ∧ (q.presOf e).isSome = true then 0x3FF else 0x3FE) with pc := x.pc + 1 } ∧
        t.irq.clm = s.irq.awake.clm ∧
        t = { cacheTouch s x.pc with irq := t.irq, units := t.units, engs := t.engs }) ∧
    (0x100 ≤ v.toNat → v.toNat ≤ 0x17F →
      Leaves (.sig e r) s { executed s e { x with pc := x.pc + 1 } with
        irq := { s.irq.awake with pend := s.irq.awake.pend ||| srcBit v.toNat } }) ∧
    (v.toNat < 0x100 ∨ 0x17F < v.toNat →
      Leaves (.sig e r) s ((executed s e { x with pc := x.pc + 1 }).setReq (.engine e)
        { s.req (.engine e) with lasterr := 0x0101 })))

/-- RETI, RETX and RETN with their active bit 1 restore the pc and the flags; with it 0 they raise ILLEGAL (R331, R332).
TRAP, which its entry follows (log entry 39), and ILLEGAL, and every form that R309 makes illegal (R309, R331, R334 to
R336). What rests on log entries 38, 39 and 59 is this model's choice or inference. -/
def Obligations.EngineTrapsAndReturns : Prop :=
  (∀ (s : State) (e : Fin 4), engineRuns s e = true →
    let x := s.eng e
    let a := 0x2000 + 0x40 * e.val
    let back (o : Nat) (y : Eng) : State :=
      executed s e { y with pc := s.reg (a + o), flags := restored (s.reg (a + o + 1)) x.flags }
    (x.iact = true → Leaves (.reti e) s (back 4 { x with iact := false })) ∧
    (x.exc = true → Leaves (.retx e) s (back 6 { x with exc := false })) ∧
    (x.nmiact = true → Leaves (.retn e) s (back 8 { x with nmiact := false })) ∧
    (x.iact = false → Leaves (.reti e) s (illegalState s e)) ∧
    (x.exc = false → Leaves (.retx e) s (illegalState s e)) ∧
    (x.nmiact = false → Leaves (.retn e) s (illegalState s e))) ∧
  (∀ (s : State) (e : Fin 4) (d r : BitVec 4) (imm off : Byte), engineRuns s e = true →
    let x := s.eng e
    let a := 0x2000 + 0x40 * e.val
    (x.exc = false → x.nmiact = false →
      Leaves (.trap e imm) s (((executed s e { x with pc := x.pc + 1, xcpt := some (.trap, true) }).setReg
        (a + 0xA) (imm.setWidth 16)).setReg a 0x0400)) ∧
    (x.exc = true ∨ x.nmiact = true →
      Leaves (.trap e imm) s (((((executed s e { x with pc := x.pc + 1 }).setReg (a + 0xA) (imm.setWidth 16)).setCode
        (0x38 + e) 0xF).setReg a 0x0500).occur 7 (8 * e + 4) 0)) ∧
    Leaves (.illegal e) s (illegalState s e) ∧
    (d.toNat % 2 = 1 → Leaves (.mul e d r) s (illegalState s e) ∧ Leaves (.mulu e d r) s (illegalState s e) ∧
      Leaves (.div e d r) s (illegalState s e) ∧ Leaves (.divu e d r) s (illegalState s e)) ∧
    Leaves (.bcc e 0xF off) s (illegalState s e) ∧
    (13 < r.toNat → Leaves (.ureqSetv e d r) s (illegalState s e) ∧ Leaves (.ureqOn e d r) s (illegalState s e) ∧
      Leaves (.ureqOff e d r) s (illegalState s e)))

/-- Entries (R330, R331, R333, R335, R346): an interrupt, an NMI, and a TRAP or an exception whose occurrence the
collector has taken; each saves the pc and the flags, clears I and goes to its vector. What rests on log entries 38, 39,
59 and 77 is this model's choice or inference. -/
def Obligations.EngineEntries : Prop :=
  ∀ (s : State) (e : Fin 4),
    let x := s.eng e
    let u := s.unit (0x38 + e)
    let a := 0x2000 + 0x40 * e.val
    u.code = 1 → u.fenced = false → x.halted = false → x.stopReq = false → x.haltReq = false →
    let entered (o : Nat) (y : Eng) (vector : Word) : State :=
      ((s.setReg (a + o) x.pc).setReg (a + o + 1) (x.flags.setWidth 16)).setEng e
        (engFinish { y with pc := vector, flags := x.flags &&& 0x3F })
    (x.xcpt = none → s.irq.asleep = false → s.irq.eligible e ≠ 0 → fI x.flags = true → x.iact = false → x.exc = false →
      x.nmiact = false → x.nmipend = false → x.stepArm = false →
      Leaves (.interruptEntry e) s (entered 4 { x with iact := true } 0x0008)) ∧
    (x.xcpt = none → x.nmipend = true → x.nmiact = false →
      Leaves (.nmiEntry e) s (entered 8 { x with nmiact := true, nmipend := false, nmiheld := false } 0x0002)) ∧
    (∀ k, x.xcpt = some (k, true) →
      Leaves (.exceptionEntry e) s (entered 6 { x with exc := true, xcpt := none }
        (match k with
        | .divzero => 0x0004
        | .trap => 0x0004
        | .illegal => 0x0006
        | .fetch => 0x0006)))

/-- UREQ SETV, ON and OFF that the unit accepts, one that it rejects, and COMMIT and ABORT (R322 to R325): the code in
g(d), the unit's GEN in g(s + 1), the results in the engine's own bank. Halts, resumes and steps by the debug registers,
the halt itself, the watchdog, the stop after RUN 0, line fills, those that fail too, and INV (R3, R302 to R304, R334,
R337, R338, R340 to R342, R344, R346, R541). That a resumed or stepped engine runs the instruction at its breakpoint is
the model's choice, and what a STEP set in a running engine does is its reading (log entry 39); that the state code
returns to RUNNING at a halt and to OFF after RUN 0 with no transition is its reading (log entry 59), as is that a
fenced engine's debug registers take no write (log entry 73) and that a line fill begins and ends with its command,
which waits while XBUSY is 1 (log entry 64). What rests on log entries 39, 59, 64 and 73 is this model's choice or
inference. -/
def Obligations.EngineRequestsAndDebug : Prop :=
  (∀ (s : State) (e : Fin 4) (d r : BitVec 4), engineRuns s e = true →
    let x := s.eng e
    let found := cacheTouch s x.pc
    let k := (x.greg r.toNat).toNat
    let owns := ownerIs (s.unit k) .engine e
    let gen : Byte := (x.greg (r.toNat + 1)).setWidth 8
    let v := x.greg (r.toNat + 2)
    let asked (q : RailReq) (i : Instr) : Prop :=
      (k < 24 → railCode s k owns (some gen) q = 0 →
        let m := railDo found k 2 none (fun _ => false) q
        Leaves i s (m.setEng e (engFinish { (x.setG d.toNat 0).setG (r.toNat + 1) ((m.unit k).gen.setWidth 16) with
          pc := x.pc + 1 }))) ∧
      (k < 24 → railCode s k owns (some gen) q ≠ 0 →
        Leaves i s (executed s e { x.setG d.toNat (railCode s k owns (some gen) q) with pc := x.pc + 1 })) ∧
      (24 ≤ k → Leaves i s (executed s e { x.setG d.toNat 0x0101 with pc := x.pc + 1 }))
    (r.toNat ≤ 13 → asked (.setv v) (.ureqSetv e d r) ∧ asked .on (.ureqOn e d r) ∧ asked .off (.ureqOff e d r)) ∧
    let g := x.greg r.toNat
    let answered (m : State) (c : Word) (rs : List Word) : State :=
      engEnd ((m.setReq (.engine e) (putResults (m.req (.engine e)) rs)).setEng e
        { (m.eng e).setG d.toNat c with pc := (m.eng e).pc + 1 }) e
    (g.toNat ≤ 7 → bankPending s (.engine e) = false →
      let y := commitGroup found (.engine e) g.toNat
      Leaves (.commitInstr e d r) s (answered y.1 y.2.1 y.2.2) ∧
      Leaves (.abortInstr e d r) s (answered (dropGroup found g.toNat) 0 [wd (groupEntries s g.toNat).length])) ∧
    (bankPending s (.engine e) = true →
      Leaves (.commitInstr e d r) s (executed s e { x.setG d.toNat 0x0302 with pc := x.pc + 1 }) ∧
      Leaves (.abortInstr e d r) s (executed s e { x.setG d.toNat 0x0302 with pc := x.pc + 1 })) ∧
    (7 < g.toNat → bankPending s (.engine e) = false →
      Leaves (.commitInstr e d r) s (answered found 0x0101 []) ∧ Leaves (.abortInstr e d r) s (answered found 0x0101 []))) ∧
  ((∀ (s : State) (r : Req) (e : Fin 4), admitted s r = true → otpLock s 4 = false →
    let x := s.eng e
    ((s.unit (0x38 + e)).fenced = false →
    let a := 0x2400 + 0x20 * e.val
    (x.halted = false → Leaves (.dbgHalt r e) s
      ((s.setReg a ((s.reg a &&& 0x000C) ||| 1)).setEng e { x with haltReq := true })) ∧
    -- a 0 leaves STEP as it is, a 1 sets it (R3)
    Leaves (.dbgResume r e) s ((s.setReg a (s.reg a &&& 0x000C)).setEng e
      { x with halted := false, haltReq := false, skipBp := x.skipBp || x.halted }) ∧
    (x.halted = true → bit (s.reg a) 0 = true → Leaves (.step r e) s
      ((s.setReg a ((s.reg a &&& 0x000C) ||| 1)).setEng e
        { x with halted := false, haltReq := false, stepArm := true, skipBp := true })) ∧
    (x.halted = false → bit (s.reg a) 0 = true → Leaves (.step r e) s
      ((s.setReg a ((s.reg a &&& 0x000C) ||| 1)).setEng e { x with haltReq := true, stepArm := true })) ∧
    (bit (s.reg a) 0 = false → Leaves (.step r e) s
      ((s.setReg a (s.reg a &&& 0x000C)).setEng e
        { x with halted := false, haltReq := false, stepArm := true, skipBp := x.skipBp || x.halted }))) ∧
    Leaves (.inv r) s { s with cache := [] }) ∧
  (∀ (s : State) (e : Fin 4),
    let x := s.eng e
    let u := s.unit (0x38 + e)
    let a := 0x2000 + 0x40 * e.val
    (x.haltReq = true → u.code = 1 ∨ u.code = 2 ∨ u.code = 3 →
      Leaves (.haltTaken e) s ((s.setCode (0x38 + e) 1).setEng e
        { x with halted := !x.stepArm, haltReq := false, skipBp := x.skipBp || x.stepArm, waiting := none })) ∧
    (bit (s.reg (a + 1)) 2 = true → u.code = 1 → u.fenced = false → x.halted = false →
      Leaves (.wdog e) s (((s.setEng e { x with wdog := s.reg (a + 3) }).setReg a 0x0600).occur 7 (8 * e + 1) 0)) ∧
    (x.stopReq = true →
      Leaves (.engineStop e) s { ((s.setUnit (0x38 + e) { u with code := 0, busy := false }).setReg (a + 1)
        (s.reg (a + 1) &&& 0xFFFE)).setEng e { x with waiting := none, stopReq := false, xcpt := none } with
        irq := s.irq.release e })) ∧
  (∀ (s : State) (e : Fin 4) (bs : List Byte), engineGoes s e = true → entryDue s e = false →
    let x := s.eng e
    let pc := x.pc
    -- a fill that fails: FETCH, in a handler of an exception or NMI a double fault, and in recipe SRAM RSRAM_UE with it
    let touched := cacheTouch s pc
    let fails : State :=
      if x.exc || x.nmiact then
        (((touched.setEng e (engFinish x)).setCode (0x38 + e) 0xF).setReg (0x2000 + 0x40 * e) 0x0500).occur 7 (8 * e + 4) 0
      else
        ((touched.setEng e (engFinish { x with xcpt := some (.fetch, false) })).setReg (0x2000 + 0x40 * e) 0x0200).occur
          7 (8 * e + 3) 0
    let sram := pc.toNat < 0x2000 ∨ (pc = 0xFFFF ∧ ∃ l ∈ s.cache, l.base = 0xFFF0)
    (sram → Leaves (.lineFill e .sramUe) s (fails.occur 8 1 0) ∧ Leaves (.lineFill e .sramCe) s (touched.occur 8 0 0)) ∧
    (¬sram → Leaves (.lineFill e .sramUe) s s ∧ Leaves (.lineFill e .sramCe) s s) ∧
    let here := pc.toNat < 0x2000 ∨ ∃ l ∈ s.cache, l.base = pc &&& 0xFFF0
    ∀ b : Word, (here → b = (pc + 1) &&& 0xFFF0) → (¬here → b = pc &&& 0xFFF0) → 0x2000 ≤ b.toNat →
    (∀ l ∈ s.cache, l.base ≠ b) →
    let failing := (s.unit 0x56).fenced = true ∨ bit (s.reg 0x5000) 0 = true
    (failing → Leaves (.lineFill e (.line bs)) s fails) ∧
    (¬failing → bit (s.reg 0x5000) 3 = true → Leaves (.lineFill e (.line bs)) s s) ∧
    (¬failing → bit (s.reg 0x5000) 3 = false → bs.length = 32 →
      ∃ t, exec (.lineFill e (.line bs)) s = .next t ∧
        t.cache.head? = some ⟨b, (List.range 16).map fun i =>
          wd ((bs.getD (2 * i) 0).toNat + 256 * (bs.getD (2 * i + 1) 0).toNat)⟩ ∧
        t.sphCmd = some (readCmd s ((s.reg 0x5004).toNat * 0x1000 + 2 * (b.toNat - 0x2000)) 32) ∧
        (∀ l ∈ t.cache.tail, l ∈ s.cache) ∧ (0x2000 ≤ pc.toNat → here → ∃ l ∈ t.cache, l.base = pc &&& 0xFFF0) ∧
        t.sphUse = rdMode s ∧
        t = { s with cache := t.cache, sphCmd := t.sphCmd, sphUse := t.sphUse, regs := t.regs, irq := t.irq, units := t.units, engs := t.engs } ∧
        (∀ c, t.reg c = if c = 0x2101 then wd (min 0xFFFF ((s.reg 0x2101).toNat + 1)) else s.reg c) ∧
        t.eng e = x)))

-- register accesses and the mailbox (00_scope.md; 01_architecture.md)

/-- A write that fails a check, by any command that writes a register, changes nothing but the requester's last-error
register, which records the code (R48, R49). Which code a write gets where several checks fail (R6, R38, R44, R83, R348,
R669, R682): E_BUSY for every write of a host and every engine's mailbox command in the load phase and for every write
to the own bank while it is PENDING, E_OTP_LOCKED for every other write to the DBG block under the debug lock; then a
reserved bit before the range, the range before a lock, a lock before a proof, a proof before a fence, a fence before
the rest. A live write to a fenced unit's registers is E_FENCED too (R29). That the first two come before every other
check is the model's reading (log entry 32), as is that a write of any register of a unit's block is a request to the
unit (log entry 73). What rests on log entries 11, 12, 32 and 73 is this model's choice or inference. -/
def Obligations.RejectedWrites : Prop :=
  (∀ (s : State) (r : Req) (c : Instr) (a : Nat) (v : Word), writes s c = some (r, a, v) → mayAccess s r = true →
    writeCode s r a v ≠ 0 → Leaves c s (s.setReq r { s.req r with lasterr := writeCode s r a v })) ∧
  (∀ (s : State) (r : Req) (a : Nat) (v : Word),
    let i := regInfo a
    let reserved := (i.acc = .reserved ∧ v ≠ 0) ∨ (i.acc ≠ .reserved ∧ i.acc ≠ .unmapped ∧ v &&& ~~~i.mask ≠ 0)
    let busy := (s.boot.phase = .load ∧ ((r.isHost = true ∧ a ≠ 0x0002) ∨ (r.eng.isSome = true ∧ a = 0x7000))) ∨ (bankPending s r = true ∧ 0x7000 ≤ a ∧ a ≤ 0x700E)
    let locked := otpLock s 4 = true ∧ 0x2400 ≤ a ∧ a < 0x2800
    (busy → writeCode s r a v = 0x0302) ∧
    (¬busy → locked → writeCode s r a v = 0x0501) ∧
    (¬busy → ¬locked →
    (reserved → a ≠ 0x1614 → writeCode s r a v = 0x0102) ∧
    (i.acc = .unmapped → writeCode s r a v = 0x0101) ∧
    (i.acc = .ro → ¬reserved → writeRange s r a v = true → writeCode s r a v = 0x0203) ∧
    (i.acc = .rws → ¬reserved → rangeOk a v = false → writeCode s r a v = 0x0101) ∧
    (i.acc = .rws → ¬reserved → writeRange s r a v = true → r ≠ .loader → s.rtc.lock = false → heldAddr s a = true →
      writeCode s r a v = 0x0601) ∧
    (∀ n, i.acc = .rws → ¬reserved → writeRange s r a v = true → r ≠ .loader → s.rtc.lock = false → heldAddr s a = false →
      holderOf a = some (.unit n) →
      ((s.unit n).fenced = true → writeCode s r a v = 0x0401) ∧
      ((s.unit n).fenced = false → (∀ u, r.unit = some u → (s.unit u).fenced = false) → reqOwns r (s.unit n) = false →
        writeCode s r a v = 0x0204)) ∧
    (∀ n, unitOfAddr a = some n → holderOf a = none → i.acc ≠ .reserved → i.acc ≠ .unmapped → i.acc ≠ .ro → ¬reserved →
      writeRange s r a v = true → r ≠ .loader → s.rtc.lock = false → heldAddr s a = false → (s.unit n).fenced = true →
      writeCode s r a v = 0x0401)))

/-- What an accepted write of an ordinary register does: a word of recipe SRAM, a reserved address written 0, a W1C
register, an engine's own last-error register, and any other accepted write as `applyWrite` (R3, R57, R668, R670, R682).
The write-one-to-clear registers of the router and of an engine's debug block are among them: IRQ_EXTFLG and IRQ_SLPST,
whose access ends a deep sleep, and DBGn_ST. That a write of a register of a fenced unit's block is none of these but
rejected is the model's reading (log entry 73), as is that only an accepted access ends a deep sleep (log entry 60).
What rests on log entries 60 and 73 is this model's choice or inference. -/
def Obligations.AcceptedWrites : Prop :=
  ∀ (s : State) (r : Req) (addr val : Word),
    let a := addr.toNat
    let i := regInfo a
    (mayAccess s r = true → writeCode s r a val = 0 → Leaves (.registerWrite r addr val) s (applyWrite s r a val)) ∧
    (admitted s r = true → 0x8000 ≤ a → a < 0xA000 →
      Leaves (.registerWrite r addr val) s (s.setSram (a - 0x8000) val)) ∧
    (admitted s r = true → i.acc = .reserved → val = 0 → r ≠ .loader → a < 0x1C00 ∨ 0x2000 ≤ a →
      (0x2400 ≤ a ∧ a < 0x2800 → otpLock s 4 = false) → (0x7000 ≤ a → bankPending s r = false) →
      Leaves (.registerWrite r addr val) s s) ∧
    (admitted s r = true → i.acc = .w1c → val &&& ~~~i.mask = 0 → a < 0x1C00 ∨ 0x3000 ≤ a →
      (∀ n, unitOfAddr a = some n → (s.unit n).fenced = false) →
      Leaves (.registerWrite r addr val) s (s.setReg a (s.reg a &&& ~~~(val &&& ~~~i.roMask)))) ∧
    (admitted s r = true → a = 0x1D58 ∨ a = 0x1D61 → val &&& ~~~i.mask = 0 →
      Leaves (.registerWrite r addr val) s ({ s with irq := s.irq.awake }.setReg a
        (s.reg a &&& ~~~(val &&& (if a = 0x1D58 then 0x00FF else 0x0002))))) ∧
    (∀ n : Fin 4, admitted s r = true → a = 0x2401 + 0x20 * n.val → otpLock s 4 = false → (s.unit (0x38 + n)).fenced = false →
      val &&& ~~~i.mask = 0 →
      Leaves (.registerWrite r addr val) s (s.setReg a (s.reg a &&& ~~~(val &&& 0x0006)))) ∧
    (admitted s r = true → a = 0x0015 → val = 0 →
      Leaves (.registerWrite r addr val) s (s.setReq r { s.req r with lasterr := 0 }))

/-- A staged write that passes enters the draught of the writer's group; the holder's GEN is recorded when it first
enters, and the unit's state does not change (R31, R265, R266). A write that R267 or R268 stops gets E_BUSY or
E_EXHAUSTED. What rests on log entries 32, 33 and 48 is this model's choice or inference. -/
def Obligations.StagedWrites : Prop :=
  ∀ (s : State) (r : Req) (addr val : Word) (h : Holder),
    let a := addr.toNat
    let g := (s.req r).cgrp
    holderOf a = some h → pairLo a = false → pairHi a = false →
    (∀ n, h = .unit n → (s.unit n).fenced = false ∧ reqOwns r (s.unit n) = true) →
    val &&& ~~~(regInfo a).mask = 0 → rangeOk a val = true → a ≠ 0x1614 → r ≠ .loader → admitted s r = true →
    let idle := ¬(seqRunning s = true ∧ (a = 0x1601 ∨ 0x1608 ≤ a ∧ a ≤ 0x160D))
    (idle → (∀ d, s.holding h = some d → d.group = g) → s.staged a ≠ none ∨ s.draught.length < 512 →
      ∃ t, Leaves (.stagedWrite r addr val) s t ∧ t = { s with draught := t.draught, holders := t.holders } ∧
        t.staged a = some { addr := a, word := val, group := g, loader := false } ∧
        (∀ b, b ≠ a → t.staged b = s.staged b) ∧
        t.holding h = some ((s.holding h).getD { holder := h, group := g, gen := holderGen s h }) ∧
        (∀ k, k ≠ h → t.holding k = s.holding k)) ∧
    (∀ d, s.holding h = some d → d.group ≠ g →
      Leaves (.stagedWrite r addr val) s (s.setReq r { s.req r with lasterr := 0x0302 })) ∧
    (idle → (∀ d, s.holding h = some d → d.group = g) → s.staged a = none → 512 ≤ s.draught.length →
      Leaves (.stagedWrite r addr val) s (s.setReq r { s.req r with lasterr := 0x0301 }))

/-- Pairs of words (R7 to R11, R52): a _LO read latches the _HI word in the reader's latch, a _HI write is only staged,
a _LO write takes the staged _HI word with it, and the time snapshot is the reader's own. What rests on log entries 52
and 68 is this model's choice or inference. -/
def Obligations.WordPairs : Prop :=
  ∀ (s : State) (r : Req) (addr val : Word), mayAccess s r = true →
    let a := addr.toNat
    let q := s.req r
    (pairLo a = true → readCode s r a = 0 →
      Leaves (.loRead r addr) s (s.setReq r { q with latch := mset dLatch q.latch a (some (liveView s r (a + 1))) })) ∧
    (pairHi a = true → writeCode s r a val = 0 →
      Leaves (.hiWrite r addr val) s (s.setReq r { q with stage := mset dLatch q.stage (a - 1) (some val) })) ∧
    (pairLo a = true → writeCode s r a val = 0 → mget dLatch q.stage a = none →
      Leaves (.loWrite r addr val) s (putWord s r a val)) ∧
    (∀ hi, pairLo a = true → writeCode s r a val = 0 → mget dLatch q.stage a = some hi →
      let m := putWord (putWord s r a val) r (a + 1) hi
      Leaves (.loWrite r addr val) s (m.setReq r { m.req r with stage := mset dLatch (m.req r).stage a none })) ∧
    (readCode s r 0x001A = 0 → Leaves (.timeSnapshot r) s (s.setReq r { q with tsnap := some s.clock.t }))

/-- Mailbox commands: while the bank is PENDING a write of CMD_OP is rejected with E_BUSY; with the CMD_SEQ of the last
completed command nothing is executed; otherwise the operation runs with the bank's arguments, whatever its outcome;
through a fenced interface only UNIT_INSPECT and UNIT_RELEASE run (R42, R44, R45, R48, R242). What completing a command
leaves (R42, R43, R45, R50): the code in CMD_STATUS, all four result words, and the sequence number, in the requester's
bank alone; a remote CMD over the ring or the floor bus is answered with the code and four words, and a code that is not
OK goes to the target's last-error register. What rests on log entries 11, 12 and 52 is this model's choice or
inference. -/
def Obligations.MailboxCommands : Prop :=
  (∀ (s : State) (r : Req) (c : Instr) (op : Word), mailbox c = some (r, op) → served s r = true →
    (bankPending s r = true → Leaves c s (s.setReq r { s.req r with lasterr := 0x0302 })) ∧
    (bankPending s r = false → reqFenced s r = true → op ≠ 0x0101 → op ≠ 0x0104 →
      Leaves c s (s.setReq r { s.req r with lasterr := 0x0401 })) ∧
    (reqFenced s r = false ∨ op = 0x0101 ∨ op = 0x0104 →
    (bankPending s r = false → (s.req r).last = some (mget dZero (s.req r).bank 1) → Leaves c s s) ∧
    (bankPending s r = false → (s.req r).last ≠ some (mget dZero (s.req r).bank 1) →
      let q := setBank s r 0 op
      let x := runOp q r op (bankArg s r)
      (x.2.1 ≠ 1 → Leaves c s (finishCmd x.1 r x.2.1 x.2.2)) ∧ (x.2.1 = 1 → Leaves c s (setBank x.1 r 0xA 1))))) ∧
  (∀ (m : State) (r : Req) (code : Word) (rs : List Word),
    let t := finishCmd m r code rs
    let word (i : Nat) : Word := mget dZero (t.req r).bank i
    word 0xA = code ∧ word 0xB = rs.getD 0 0 ∧ word 0xC = rs.getD 1 0 ∧ word 0xD = rs.getD 2 0 ∧ word 0xE = rs.getD 3 0 ∧
    (∀ i, i < 0xA → word i = mget dZero (m.req r).bank i) ∧ (t.req r).last = some (word 1) ∧
    (∀ q, q ≠ r → t.req q = m.req q) ∧
    t = { m with reqs := t.reqs, ring := { m.ring with job := t.ring.job, outR := t.ring.outR, kept := t.ring.kept },
                 floor := { m.floor with job := t.floor.job, outR := t.floor.outR, kept := t.floor.kept } } ∧
    (r ≠ .ring → t.ring = m.ring ∧ (r ≠ .floor → t.floor = m.floor)) ∧
    (∀ j, r = .ring → m.ring.job = some j →
      t.ring.job = none ∧ (t.req r).lasterr = (if code = 0 then (m.req r).lasterr else code) ∧
      t.ring.outR = m.ring.outR ++
        [{ kind := j.kind + 8, dst := j.src, src := ringSelf m, tag := j.tag, count := 4, code := code
           data := [rs.getD 0 0, rs.getD 1 0, rs.getD 2 0, rs.getD 3 0] }]) ∧
    (∀ j, r = .floor → m.floor.job = some j →
      t.floor.job = none ∧ (t.req r).lasterr = (if code = 0 then (m.req r).lasterr else code) ∧
      t.floor.outR = m.floor.outR ++
        [{ kind := j.kind + 8, dst := j.src, src := ringSelf m, tag := j.tag, count := 4, code := code
           data := [rs.getD 0 0, rs.getD 1 0, rs.getD 2 0, rs.getD 3 0] }]) ∧
    (r = .ring → m.ring.job = none → t.ring = m.ring) ∧ (r = .floor → m.floor.job = none → t.floor = m.floor))

-- units, commits and the cellar log (01_architecture.md; 08_commits_recovery_and_cellar.md)

/-- Unit operations that pass their checks (R23, R25, R27 to R29, R40): one transition each but for the inspection, and
the new STATE word in RES0. One that fails its checks leaves the unit as it was and answers the code (R24, R38, R43).
What rests on log entries 34 and 58 is this model's choice or inference. -/
def Obligations.UnitOperations : Prop :=
  ∀ (s : State) (r : Req), commandable s r = true →
    let a := bankArg s r
    let n := (a 0).toNat
    let u := s.unit n
    let q (op : Word) : State := setBank s r 0 op
    let done (i : Instr) (m : State) : Prop := Leaves i s (finishCmd m r 0 [(m.unit n).word])
    let told (m : State) : State := if n < 16 then m.changed n (fun _ => false) else m
    let own := field (a 2) 1 0
    let idx := field (a 2) 5 2
    let current := unitNamed n = true ∧ a 1 = u.gen.setWidth 16 ∧ u.busy = false ∧ u.owner ≠ .sequencer
    let code (res range fenceOk owner : Bool) : Word := firstFail [(res || a 1 &&& 0xFF00 != 0, 0x0102),
      (!unitNamed n || range, 0x0101), (u.fenced && !fenceOk, 0x0401), (u.owner == .sequencer || !owner, 0x0204), (a 1 != u.gen.setWidth 16, 0x0202),
      (u.busy, 0x0302)]
    (unitNamed n = true → Leaves (.unitInspect r) s
      (finishCmd (q 0x0101) r 0 [u.word, wd (u.oidx.toNat + 16 * u.src.toNat)])) ∧
    (unitNamed n = false → Leaves (.unitInspect r) s (finishCmd (q 0x0101) r 0x0101 [])) ∧
    (current → u.fenced = false → reqOwns r u = true → a 2 &&& 0xFFC0 = 0 →
      (own = 0 ∧ idx = 0) ∨ ((own = 1 ∨ own = 2) ∧ idx ≤ 3) → ¬(n = 0x04D ∧ own = 1) →
      let m := told ((q 0x0102).accept n r.src fun u => { u with owner := ownerOf own, oidx := BitVec.ofNat 4 idx })
      done (.unitGive r) (if own = 1 ∧ n < 16 then giveSync m n idx else m)) ∧
    (current → u.fenced = false →
      done (.unitTake r) (told ((q 0x0103).accept n r.src fun u => { u with owner := .management, oidx := 0 }))) ∧
    (current → u.fenced = true → r.isMgmt = true →
      let c := releaseCode s n
      let m := (q 0x0104).accept n r.src fun u => { u with fenced := false, busy := false, code := c }
      done (.unitRelease r) (logFence (releaseEffects m n) n false) ∧
      (n = 0x04C → c = 1) ∧ (0x38 ≤ n → n < 0x3C → c = 0) ∧ (0x80 ≤ n → (s.tap (n - 0x80)).isSome = true → c = 1)) ∧
    (current → u.fenced = false → u.code ≠ 0xE → canFence n = true →
      done (.unitFence r) (logFence (fenceEffects ((q 0x0105).accept n r.src fun u =>
        { u with fenced := true, busy := false }) n) n true)) ∧
    let failed (i : Instr) (op c : Word) : Prop := c ≠ 0 → Leaves i s (finishCmd (q op) r c [])
    failed (.unitGive r) 0x0102 (code (a 2 &&& 0xFFC0 != 0)
      (own == 3 || (own != 0 && decide (3 < idx)) || (own == 0 && idx != 0) || (n == 0x04D && own == 1)) false (reqOwns r u)) ∧
    failed (.unitTake r) 0x0103 (code false false false true) ∧
    failed (.unitFence r) 0x0105 (code false (!canFence n) false true) ∧
    failed (.unitRelease r) 0x0104 (code false false true r.isMgmt) ∧
    (code false false true r.isMgmt = 0 → u.fenced = false → Leaves (.unitRelease r) s (finishCmd (q 0x0104) r 0x0201 []))

/-- COMMIT that applies nothing: an empty group completes with OK and no number; a failing entry gives its address, its
unit and its code, and the draught stays (R271, R272, R274). COMMIT that passes (R273, R274, R278, R298): every entry
takes effect and no other committed value changes, every unit with entries, every phase that a gang takes in or releases
and every rail that a port claims accepts exactly one transition, those are counted, the group's draught is empty, the
next commit number is given and enters the ledger. What that COMMIT does to the units (R120 to R122, R132, R135, R136,
R147, R155, R222, R229, R301, R302, R381, R431, R510): the state code and BUSY of each kind of unit that accepts its
transition, the owner of a rail that is claimed or that a gang takes in or releases, and the GEN that the claiming
port's slots record; a unit that accepts none is as it was, but for a rail in TRACK_WAIT that enters STARTING with its
source and a transmit lane that falls with its pair. The registers with which an engine starts, beside its pc, g0 to g15
and flags, are the model's choice (log entry 39). What rests on log entries 23, 48 and 49 is this model's choice or
inference. -/
def Obligations.Commits : Prop :=
  (∀ (s : State) (r : Req), commandable s r = true → bankArg s r 0 ≤ 7 →
    let g := (bankArg s r 0).toNat
    let q := setBank s r 0 0x0201
    (groupEntries s g = [] → Leaves (.commit r) s (finishCmd q r 0 [])) ∧
    (∀ e c, groupEntries s g ≠ [] → commitFailure q (groupEntries s g) = some (e, c) →
      Leaves (.commit r) s (finishCmd q r c [wd e.addr, match holderOf e.addr with
        | some (.unit n) => wd n
        | _ => 0xFFFF]))) ∧
  (∀ (s : State) (r : Req), Canonical s → commandable s r = true → bankArg s r 0 ≤ 7 →
    let g := (bankArg s r 0).toNat
    let es := groupEntries s g
    let t0 := withEntries s es
    let no := s.commitNo + 1
    let slot := if no = 1 then 0 else ((s.reg 0x0508).toNat + 1) % 32
    let accepts (n : Nat) : Prop := (∃ e ∈ es, holderOf e.addr = some (.unit n)) ∨
      (n < 16 ∧ leaderOf s n ≠ leaderOf t0 n ∧ (isFollower s n = true ∨ isFollower t0 n = true)) ∨
      (∃ k ∈ slotKeys, newClaim s t0 k = true ∧ slotRail t0 k = n)
    es ≠ [] → commitFailure (setBank s r 0 0x0201) es = none →
      ∃ t, Leaves (.commit r) s t ∧
        let units := wd ((List.range 256).filter fun n => (t.unit n).gen ≠ (s.unit n).gen).length
        -- of a phase that leaves a gang ON is committed as 0 with it (R132)
        (∀ e ∈ es, t.reg e.addr = if 0x1000 ≤ e.addr ∧ e.addr < 0x1400 ∧ e.addr % 0x40 = 1 ∧
            isFollower s ((e.addr - 0x1000) / 0x40) = true ∧ isFollower t0 ((e.addr - 0x1000) / 0x40) = false
          then e.word &&& 0xFFFE else e.word) ∧
        (∀ a, (holderOf a).isSome = true → (∀ e ∈ es, e.addr ≠ a) →
          t.reg a = if 0x1000 ≤ a ∧ a < 0x1400 ∧ a % 0x40 = 1 ∧ isFollower s ((a - 0x1000) / 0x40) = true ∧
            isFollower t0 ((a - 0x1000) / 0x40) = false then s.reg a &&& 0xFFFE else s.reg a) ∧
        (∀ n, accepts n → (t.unit n).gen = (s.unit n).gen + 1 ∧ (t.unit n).src = r.src) ∧
        (∀ n, ¬accepts n → (t.unit n).gen = (s.unit n).gen ∧ (t.unit n).src = (s.unit n).src) ∧
        t.draught = s.draught.filter (fun e => e.group.toNat ≠ g) ∧
        t.holders = s.holders.filter (fun h => h.group.toNat ≠ g) ∧
        t.commitNo = no ∧ t.reg 0x0508 = wd slot ∧
        (∀ i, i < 8 → mget dZero t.ledger (slot * 8 + i) =
          ([no.setWidth 16, (no >>> 16).setWidth 16, wd (g + 16 * r.idx), units] ++ timeWords s.clock.t).getD i 0) ∧
        (∀ i, i < 8 * 32 → i / 8 ≠ slot → mget dZero t.ledger i = mget dZero s.ledger i) ∧
        [0xA, 0xB, 0xC, 0xD, 0xE].map (mget dZero (t.req r).bank) =
          [0, no.setWidth 16, (no >>> 16).setWidth 16, units, 0] ∧
        t.sram = s.sram ∧ t.boot = s.boot ∧ t.clock = s.clock ∧ t.supply = s.supply ∧ t.seq = s.seq ∧ t.store = s.store ∧
        t.unack = s.unack ∧ t.rtc = s.rtc ∧ t.otp = s.otp ∧ t.spt = s.spt ∧ t.uart = s.uart) ∧
  (∀ (s : State) (r : Req), Canonical s → commandable s r = true → bankArg s r 0 ≤ 7 →
    let es := groupEntries s (bankArg s r 0).toNat
    let t0 := withEntries s es
    let entered (n : Nat) : Prop := ∃ e ∈ es, holderOf e.addr = some (.unit n)
    let claimed (p n : Nat) : Prop := ∃ m ∈ List.range 4, newClaim s t0 (4 * p + m) = true ∧ slotRail t0 (4 * p + m) = n
    let moved (n : Nat) : Prop := leaderOf s n ≠ leaderOf t0 n ∧ (isFollower s n = true ∨ isFollower t0 n = true)
    let rises (a : Nat) : Bool := !bit (s.reg a) 0 && bit (t0.reg a) 0
    let falls (a : Nat) : Bool := bit (s.reg a) 0 && !bit (t0.reg a) 0
    let enables : List (Nat × Nat) := (List.range 32).map (fun n => (0x18 + n, 0x1501 + 8 * n)) ++
      (List.range 4).map (fun p => (0x3C + p, 0x1801 + 0x10 * p)) ++ (List.range 8).map (fun n => (0x40 + n, 0x5801 + 0x10 * n)) ++
      [(0x4C, 0x4800), (0x58, 0x5201), (0x59, 0x5301), (0x5A, 0x5401)]
    es ≠ [] → commitFailure (setBank s r 0 0x0201) es = none →
      ∃ t, Leaves (.commit r) s t ∧
        let unitIs (n : Nat) (c : BitVec 4) (b : Bool) : Prop := t.unit n = { s.unit n with
          code := c, busy := b, gen := (s.unit n).gen + 1, src := r.src }
        let drops (n : Nat) (c : BitVec 4) : Prop := n % 2 = 1 ∧ s.ring.live = true ∧ (s.unit (0x48 + n)).fenced = false ∧
          (c = 1 ∨ c = 2 ∨ c = 3) ∧ ((t.unit (0x48 + (3 - n))).code = 4 ∨
            4 ≤ (if n = 3 then s.ring.west.losRun else s.ring.east.losRun))
        -- rails: state code, BUSY and hush
        (∀ n, n < 16 → entered n ∨ moved n ∨ (∃ p ∈ List.range 4, claimed p n) →
          let u := s.unit n
          let a := 0x1001 + 0x40 * n
          let hushed := (s.rail n).hushed
          let waits := trackMode t0 n ≠ 0 ∧ ((s.unit (trackSrc t0 n)).code = 0 ∨ (s.unit (trackSrc t0 n)).code = 1)
          let codeIs (c : BitVec 4) (b : Bool) : Prop := (t.unit n).busy = b ∧ (t.unit n).fenced = u.fenced ∧
            ((t.unit n).code = c ∨
              (c = 1 ∧ (t.unit n).code = 2 ∧ trackMode t0 n ≠ 0 ∧ (t.unit (trackSrc t0 n)).code = 2))
          if isFollower t0 n = true then codeIs 7 false
          else if isFollower s n = true then codeIs 0 false
          else if rises a = true then (waits → codeIs 1 true) ∧ (¬waits → codeIs 2 true)
          else if falls a = true then (u.code = 1 → codeIs 0 false) ∧
            (u.code ≠ 1 → hushed = true → codeIs u.code true ∧ (t.rail n).after = some 6) ∧
            (u.code ≠ 1 → hushed = false → codeIs 6 true)
          else if s.reg (a + 1) ≠ t0.reg (a + 1) ∧ u.code = 4 then
            (hushed = true → codeIs 4 true ∧ (t.rail n).after = some 5) ∧ (hushed = false → codeIs 5 true)
          else codeIs u.code u.busy) ∧
        -- their owners (R132, R222)
        (∀ n, n < 16 → (∀ p ∈ List.range 4, claimed p n → (t.unit n).owner = .port ∧ (t.unit n).oidx = BitVec.ofNat 4 p ∧
            (∀ m ∈ List.range 4, slotRail t0 (4 * p + m) = n →
              t.reg (xgenAddr (4 * p + m)) = (t.unit n).gen.setWidth 16)) ∧
          ((∀ p ∈ List.range 4, ¬claimed p n) →
            if (entered n ∨ moved n) ∧ isFollower t0 n = true then (t.unit n).owner = .sequencer ∧ (t.unit n).oidx = 0
            else if (entered n ∨ moved n) ∧ isFollower s n = true then (t.unit n).owner = .management ∧ (t.unit n).oidx = 0
            else (t.unit n).owner = (s.unit n).owner ∧ (t.unit n).oidx = (s.unit n).oidx)) ∧
        -- LDOs (R155)
        (∀ n, 16 ≤ n → n < 24 → entered n →
          let a := 0x1401 + 0x20 * (n - 16)
          if rises a = true then unitIs n 2 true
          else if falls a = true then unitIs n 6 true else unitIs n (s.unit n).code (s.unit n).busy) ∧
        -- units whose state code follows EN: supervisors, load command ports, timers, the floor port, I2C and UART
        (∀ x ∈ enables, entered x.1 →
          if rises x.2 = true then unitIs x.1 1 false
          else if falls x.2 = true then unitIs x.1 0 false else unitIs x.1 (s.unit x.1).code (s.unit x.1).busy) ∧
        -- engines (R301, R302)
        (∀ e, e < 4 → entered (0x38 + e) →
          let a := 0x2001 + 0x40 * e
          let x := s.eng e
          if rises a = true then unitIs (0x38 + e) 1 false ∧
            t.eng e = { pc := t0.reg (a + 1), wdog := t0.reg (a + 2), halted := x.halted, haltReq := x.haltReq
                        stepArm := x.stepArm, nmipend := x.nmipend }
          else if falls a = true then unitIs (0x38 + e) (s.unit (0x38 + e)).code true ∧ t.eng e = { x with stopReq := true }
          else unitIs (0x38 + e) (s.unit (0x38 + e)).code (s.unit (0x38 + e)).busy ∧ t.eng e = x) ∧
        -- ring lanes (R431); a transmit lane is DOWN while its pair is, or the neighbour reports LOSREP (R432)
        (∀ n, n < 4 → entered (0x48 + n) →
          let a := 0x4040 + 0x10 * n
          let same := field (s.reg a) 1 0 = field (t0.reg a) 1 0
          let c : BitVec 4 := if same then (s.unit (0x48 + n)).code
            else if s.ring.live = false ∨ bit (t0.reg a) 0 = false then 0 else if bit (t0.reg a) 1 = true then 5 else 1
          unitIs (0x48 + n) (if drops n c then 4 else c) (if same then (s.unit (0x48 + n)).busy else false)) ∧
        -- the charger (R510)
        (entered 0x4D →
          if rises 0x1A01 = true then unitIs 0x4D 1 false
          else if falls 0x1A01 = true then unitIs 0x4D 0 false else unitIs 0x4D (s.unit 0x4D).code (s.unit 0x4D).busy) ∧
        -- measurement converters (R381)
        (∀ c, c < 8 → entered (0x4E + c) →
          unitIs (0x4E + c) (if bit (t0.reg (0x3000 + 4 * c)) 0 = false then 0
            else if boundTaps s c = [] then 1 else 2) (s.unit (0x4E + c)).busy) ∧
        -- the SPI ports have one state (R557)
        (∀ n ∈ [0x56, 0x57], entered n → unitIs n (s.unit n).code (s.unit n).busy) ∧
        (∀ n, ¬entered n → ¬(n < 16 ∧ (moved n ∨ ∃ p ∈ List.range 4, claimed p n)) →
          t.unit n = s.unit n ∨ (n < 16 ∧ (s.unit n).code = 1 ∧ trackMode t0 n ≠ 0 ∧
            (t.unit (trackSrc t0 n)).code = 2 ∧ t.unit n = { s.unit n with code := 2 }) ∨
            (0x48 ≤ n ∧ n < 0x4C ∧ drops (n - 0x48) (s.unit n).code ∧ t.unit n = { s.unit n with code := 4 })))

/-- ABORT discards the entries of its group alone and changes no unit; DRAUGHT_READ shows a staged word with its group
and recorded GEN, or what a read returns (R276, R298). An entry of the cellar log, as LOG_WRITE writes it (R291 to R295,
R298): its sixteen words in the slot at LOG_WRPTR, with the CRC of R153 over the other fifteen, the next sequence number
and the time; the pointers; and what a full log does. A write of LOG_RDPTR sets LOG_FILL (R685). What rests on log
entries 12 and 68 is this model's choice or inference. -/
def Obligations.DraughtAndLog : Prop :=
  (∀ (s : State) (r : Req), commandable s r = true →
    let a := bankArg s r 0
    let q (op : Word) : State := setBank s r 0 op
    (a ≤ 7 → Leaves (.abort r) s (finishCmd
      { q 0x0202 with draught := s.draught.filter fun e => e.group.toNat ≠ a.toNat
                      holders := s.holders.filter fun h => h.group.toNat ≠ a.toNat }
      r 0 [wd (s.draught.filter fun e => e.group.toNat = a.toNat).length])) ∧
    (∀ e h d, s.staged a.toNat = some e → holderOf a.toNat = some h → s.holding h = some d →
      Leaves (.draughtRead r) s (finishCmd (q 0x0203) r 0 [e.word, wd (0x8000 + e.group.toNat), d.gen.setWidth 16])) ∧
    (s.staged a.toNat = none → readCode s r a.toNat = 0 →
      Leaves (.draughtRead r) s (finishCmd (q 0x0203).tick r 0 [view (q 0x0203) r a.toNat])) ∧
    ((regInfo a.toNat).acc = .unmapped → Leaves (.draughtRead r) s (finishCmd (q 0x0203) r 0x0101 []))) ∧
  ((∀ (s : State) (r : Req), commandable s r = true →
    let slot := (s.reg 0x0C02).toNat
    let next := wd ((slot + 1) % 4096)
    let body := [s.logSeq.setWidth 16, (s.logSeq >>> 16).setWidth 16] ++ timeWords s.clock.t ++
      (List.range 8).map (bankArg s r)
    let entry : List Word := [0x000A, crc16words (0x000A :: body)] ++ body
    let q := setBank s r 0 0x0204
    (logFull s = false → s.logLost = 0 →
      ∃ t, Leaves (.logWrite r) s
          (finishCmd t r 0 [s.logSeq.setWidth 16, (s.logSeq >>> 16).setWidth 16]) ∧
        t = { q with log := t.log, logSeq := s.logSeq + 1, regs := t.regs } ∧
        (∀ i, i < 16 → mget dZero t.log (slot * 16 + i) = entry.getD i 0) ∧
        (∀ i, i / 16 ≠ slot → mget dZero t.log i = mget dZero s.log i) ∧
        (∀ a, t.reg a = if a = 0x0C02 then next
          else if a = 0x0C03 ∧ 4096 ≤ (s.reg 0x0C04).toNat then next
          else if a = 0x0C04 ∧ (s.reg 0x0C04).toNat < 4096 then s.reg 0x0C04 + 1
          else if a = 0x0C01 ∧ 4096 ≤ (s.reg 0x0C04).toNat then s.reg 0x0C01 ||| 1
          else s.reg a)) ∧
    (logFull s = true → Leaves (.logWrite r) s
      (finishCmd { q with logLost := if s.logLost = 0xFFFFFFFF then s.logLost else s.logLost + 1 } r 0x0301 []))) ∧
  (∀ (s : State) (r : Req) (val : Word), admitted s r = true → val ≤ 0x0FFF →
    Leaves (.logRdptrWrite r val) s
      ((s.setReg 0x0C03 val).setReg 0x0C04 (wd (((s.reg 0x0C02).toNat + 4096 - val.toNat) % 4096)))))

-- rails, LDOs, supervisors and the cold stop (04_rails.md; 05_sequencing_and_cold_stop.md)

/-- The ends of a rail's and an LDO's transitions and the changes inside them (R119, R120, R123, R129, R148, R149, R156,
R215): BUSY clears at the end, GEN stays, and a load port slot gets its DONE with the generation. A rail regulates once
its sense voltage has stayed in the power-good window for SETTLE; a phase's current limit ends its pulse for the rest of
its period. PER and PHASE taken into effect reach every phase of a gang, phase i (i × PER)/k after the leader (R131);
that PER_PHASE_APPLY reports every period boundary, the first after a hush too (R147), is the model's choice (log entry
70). A hush (R142 to R144, R146, R147): one that a converter asks for begins, at a period boundary of the rail, in
REGULATING where HUSH_ALLOW is 1, changes no STATE word, ends, and ends early on a droop with HABORT. A transition
accepted during it takes effect at its end where LEN is a whole number of periods, and otherwise at the first period
boundary after it (log entry 70). The conversions that asked for it go with it (R401, R402). What rests on log entries
25 and 70 is this model's choice or inference. -/
def Obligations.RailProgressAndHushes : Prop :=
  (∀ (s : State) (n : Fin 16) (moved cycles : Nat) (lo hi : Word) (m : Meas),
    let u := s.unit n
    let x := s.rail n
    let a := 0x1000 + 0x40 * n.val
    let reg (o : Nat) : Nat := (effReg s n o).toNat
    -- SETTLE is in 10 µs, of 250 timebase cycles each; the window is the reference × (1 ± PGM/256)
    let settled := 250 * (reg 7 / 256) ≤ cycles ∧ 1 ≤ cycles ∧ lo ≤ hi ∧
      reg 2 * (256 - reg 7 % 256) ≤ 256 * lo.toNat ∧ 256 * hi.toNat ≤ reg 2 * (256 + reg 7 % 256)
    let ends (i : Instr) (v : UnitSt) (y : Rail) (evt : Word) : Prop := ∃ t, exec i s = .next t ∧
      t = { s with units := t.units, rails := t.rails, regs := t.regs, slots := t.slots, irq := t.irq, engs := t.engs } ∧
      t.unit n = v ∧ (∀ k, k ≠ n.val → k < 0x38 → t.unit k = s.unit k) ∧
      t.rail n = y ∧ (∀ k, k ≠ n.val → t.rail k = s.rail k) ∧
      (∀ b, (∀ j, j < 16 → b ≠ xgenAddr j ∧ b ≠ 0x180D + 0x10 * (j / 4)) →
        t.reg b = if b = a + 0x11 then s.reg b ||| evt else s.reg b) ∧
      (∀ j, j < 16 →
        let mine := (s.slot j).inflight.filter fun p => p.2 = n.val
        let dones := mine.map fun p => outcomeWord 1 p.1 0 u.gen
        (mine ≠ [] → t.slot j = { s.slot j with
            inflight := (s.slot j).inflight.filter fun p => p.2 ≠ n.val
            record := if (s.slot j).unrep then (s.slot j).record else dones.headD 0
            unrep := true
            queue := (s.slot j).queue ++ if (s.slot j).unrep then dones else dones.tail } ∧
          t.reg (xgenAddr j) = u.gen.setWidth 16) ∧
        (mine = [] → t.slot j = s.slot j ∧ t.reg (xgenAddr j) = s.reg (xgenAddr j)))
    (u.code = 2 → x.checked = false → moved ≤ 100 →
      Leaves (.startCheckEnd n moved m) s (s.setRail n { x with checked := true })) ∧
    ((u.code = 2 ∧ x.checked = true) ∨ u.code = 5 →
      Leaves (.rampDone n) s ((s.setCode n 3).setRail n { x with tracking := false })) ∧
    (u.code = 3 → settled → ends (.settleDone n cycles lo hi) { u with code := 4, busy := false } { x with pg := true } 1) ∧
    (u.code ≠ 3 ∨ ¬settled → Leaves (.settleDone n cycles lo hi) s s) ∧
    (u.code = 6 → ends (.stopRampDone (n.castLE (by decide))) { u with code := 0, busy := false }
      { x with pg := false, tracking := false, disch := true } 2) ∧
    (isFollower s n = true → Leaves (.perPhaseApply n) s s) ∧
    -- a period boundary: what a hush held back takes effect at the first one after it (R147)
    let b : State := if x.hushed then s else match x.after with
      | none => s.setRail n { x with eff := none }
      | some c => (s.setRail n { x with after := none, eff := none, pg := x.pg && c == 5 }).setCode n c
    (isFollower s n = false → ∃ t, Leaves (.perPhaseApply n) s t ∧ t = { b with rails := t.rails } ∧
      ∀ k, t.rail k = if n.val ≤ k ∧ k ≤ n.val + gangOf s n then
        { b.rail k with per := effReg b n 4, phase := wd (((effReg b n 5).toNat +
          (k - n.val) * (effReg b n 4).toNat / (gangOf s n + 1)) % (effReg b n 4).toNat) }
        else b.rail k) ∧
    (∀ (i : Fin 4) (imon left : Nat),
      let y := s.rail (n + i)
      let over_ : Prop := 2 ≤ u.code ∧ u.code ≤ 6 ∧ x.hushed = false ∧ i ≤ gangOf s n ∧
        (reg 9 : Int) * (effReg s (n + i) 0xA).toNat < 100 * ((imon : Int) - 1000 * (effReg s (n + i) 0xB).toNat)
      (over_ → Leaves (.ilim n i imon left) s (s.setRail (n + i) { y with ilim := max 1 (min left y.per.toNat) })) ∧
      (¬over_ → Leaves (.ilim n i imon left) s s)) ∧
    (∀ k : Fin 24, 16 ≤ k.val → (s.unit k).code = 6 →
      Leaves (.stopRampDone k) s ((s.setUnit k { s.unit k with code := 0, busy := false }).setLdo (k.val - 16)
        { s.ldo (k.val - 16) with pg := false, ilim := false, disch := true }))) ∧
  (∀ (s : State) (n : Fin 16) (sense : Word),
    let u := s.unit n
    let x := s.rail n
    let a := 0x1000 + 0x40 * n.val
    let marked (t : State) (p q : ConvHush) : Prop := ∀ c, c < 8 →
      t.conv c = if (s.conv c).hush = p ∧ (s.conv c).rail = n.val then { s.conv c with hush := q } else s.conv c
    let asked := ∃ c, c < 8 ∧ (s.conv c).hush = .asked ∧ (s.conv c).rail = n.val
    let boundary : State := match x.after with
      | none => s.setRail n { x with hushed := false, eff := none }
      | some c => (s.setRail n { x with hushed := false, after := none, eff := none, pg := x.pg && c == 5 }).setCode n c
    let over_ : State := s.setRail n { x with hushed := false }
    (u.code = 4 → u.busy = false → bit (effReg s n 1) 6 = true → x.hushed = false → asked →
      ∃ t, Leaves (.hushBegin n) s t ∧ marked t .asked .hushed ∧
        t = { boundary with rails := t.rails, mea := { s.mea with convs := t.mea.convs } } ∧
        ∀ k, t.rail k = if n.val ≤ k ∧ k ≤ n.val + gangOf s n then
          { boundary.rail k with per := effReg boundary n 4, phase := wd (((effReg boundary n 5).toNat +
            (k - n.val) * (effReg boundary n 4).toNat / (gangOf s n + 1)) % (effReg boundary n 4).toNat)
                                 hushed := k == n.val || (s.rail k).hushed }
          else boundary.rail k) ∧
    (u.code ≠ 4 ∨ u.busy = true ∨ bit (effReg s n 1) 6 = false ∨ x.hushed = true ∨ ¬asked →
      Leaves (.hushBegin n) s s) ∧
    (x.hushed = true →
      Leaves (.hushEnd n) s (if (effReg s n 0xE).toNat % x.per.toNat = 0 then boundary else over_)) ∧
    (x.hushed = false → Leaves (.hushEnd n) s s) ∧
    (x.hushed = true → sense.toNat + 10 * (effReg s n 0xF).toNat < (effReg s n 2).toNat →
      ∃ t, Leaves (.hushDroop n sense) s (t.setReg (a + 0x11) (s.reg (a + 0x11) ||| 4)) ∧ marked t .hushed .unhushed ∧
        t = { over_ with mea := { s.mea with convs := t.mea.convs } }) ∧
    (x.hushed = false ∨ (effReg s n 2).toNat ≤ sense.toNat + 10 * (effReg s n 0xF).toNat → Leaves (.hushDroop n sense) s s))

/-- The nine detections of a switching rail, each armed in its states and on its condition (R118, R124, R131, R137 to
R140, R148, R150): the cold stop at once with the rail FAULTED, its last-fault record due as R153 lays it out, and the
occurrence of class RAIL with the detection's code. The reference is that of the state: on the ramps the rail's own SLEW
or the tracking law (rounding of own ramps: the model's choice, log entry 25). During a hush OC, SHORT and OPEN_SENSE
are not armed. In OFF, TRACK_WAIT, GANGED and FAULTED none of them detects; a rail that the cold stop of the same
timebase cycle put in OFF is judged as it was, and is FAULTED too (R152). What rests on log entries 56, 57 and 70 is
this model's choice or inference. -/
def Obligations.RailDetections : Prop :=
  ∀ (s : State) (n : Fin 16) (m : Meas),
    let u := s.unit n
    let x := s.rail n
    let reg (o : Nat) : Nat := (effReg s n o).toNat
    let vset := reg 2
    let src := trackSrc s n
    let mode := field (s.reg (0x100C + 0x40 * n)) 1 0
    let scale (k : Nat) : Nat := 2 ^ field (effReg s k 1) 2 1
    let own := reg 3 * m.ramp / 20000
    let with_ (t : Nat) : Nat := (effReg s src 3).toNat * scale src * t / (20000 * scale n)
    let ratio := min vset (reg 0xD * (m.srcSense.toNat * scale src) / (16384 * scale n))
    let ref : Nat :=
      if u.code = 2 then
        (if x.checked = false then 0
        else if x.tracking = true ∧ mode = 1 then ratio
        else if x.tracking = true ∧ mode = 2 then min vset (with_ m.ramp)
        else min vset own)
      else if u.code = 5 then
        (if x.oldV.toNat ≤ vset then min vset (x.oldV.toNat + own) else max vset (x.oldV.toNat - own))
      else if u.code = 6 then
        (if mode = 1 then min (x.oldV.toNat - own) ratio
        else if mode = 2 then x.oldV.toNat - (with_ m.srcRamp + reg 3 * (m.ramp - m.srcRamp) / 20000)
        else x.oldV.toNat - own)
      else if u.code = 3 ∨ u.code = 4 then vset else 0
    let hi := if u.code = 5 then max x.oldV.toNat vset else ref
    let lo := if u.code = 5 then min x.oldV.toNat vset else ref
    let sw := 2 ≤ u.code ∧ u.code ≤ 6
    let pulses := sw ∧ x.hushed = false
    let phases := gangOf s n
    let gain (k : Nat) : Int := (effReg s k 0xA).toNat
    let above (k v : Nat) : Int := 100 * ((v : Int) - 1000 * (effReg s k 0xB).toNat)
    let over_ (two : Nat) : Prop := two * reg 9 * gain (n + m.phase) < 2 * above (n + m.phase) m.peak
    let mine := m.phase.val ≤ phases
    let record (code : Nat) : List Word :=
      [wd (code + 256 * n + 4096 * field (effReg s n 1) 2 1 + 0x4000), effReg s n 2, wd ref, m.sense,
       ampWord s n 1 m.imon, tempWord s m.tmon, m.vsys, wd (u.code.toNat + 16 * (if code = 3 ∨ code = 4 ∨ code = 6 ∨ code = 7 then m.phase.val else 0) + 256 * u.gen.toNat)] ++
      ((List.range 16).flatMap fun i => [(m.hist.getD i (0, [])).1, ampWord s n (2 + i) (m.hist.getD i (0, [])).2]) ++
      timeWords s.clock.t
    let found (p : State) (code : Nat) : State :=
      let t := coldStop p 1 n fun k => k == n.val
      { t with recsDue := s.recsDue ++ [record code]
               fresh := t.fresh + 18
               snap := some { units := p.units, rails := p.rails, ldos := p.ldos, regs := p.regs } }.occur 1 n
        (BitVec.ofNat 8 code) (some (t.reg 0x1604))
    let pin := s.setRail (n + m.phase) { s.rail (n + m.phase) with fltn := true }
    (sw → max hi 3000 * (256 + reg 6 % 256) < m.sense.toNat * 256 → Leaves (.ov n m) s (found s 1)) ∧
    (u.code = 4 ∨ u.code = 5 → m.sense.toNat * 256 < lo * (256 - reg 6 / 256) → Leaves (.uv n m) s (found s 2)) ∧
    (pulses → mine → over_ 2 → Leaves (.oc n m) s (found s 3)) ∧
    (pulses → mine → over_ 3 ∨ (over_ 2 ∧ m.sense.toNat * 4 < ref) → Leaves (.short n m) s (found s 4)) ∧
    (pulses → m.sense.toNat * 2 < ref → (∀ i, i ≤ phases → above (n + i) (m.imon.getD i 0) < reg 9 * gain (n + i)) →
      Leaves (.openSense n m) s (found s 5)) ∧
    (∀ moved, u.code = 2 → x.checked = false → 100 < moved → Leaves (.startCheckEnd n moved m) s (found s 5)) ∧
    (sw → mine → (reg 1).testBit 7 = true → Leaves (.stageFlt n m) s (found pin 6)) ∧
    (sw → mine → 8000 * (reg 0x10 : Int) < m.tmon - 600000 → Leaves (.stageOt n m) s (found s 7)) ∧
    (u.code = 3 → Leaves (.ssto n m) s (found s 8)) ∧
    (u.code = 2 ∨ u.code = 6 → mode ≠ 0 →
      10 * (reg 0xC / 256) < ((m.sense.toNat : Int) - ref).natAbs → Leaves (.trackErr n m) s (found s 9)) ∧
    (sw → x.hushed = true → s.snap = none → ∀ i ∈ [Instr.oc n m, .short n m, .openSense n m], Leaves i s s) ∧
    ((u.code = 0 ∧ s.snap = none) ∨ u.code = 1 ∨ u.code = 7 ∨ u.code = 0xF →
      (∀ i ∈ [Instr.ov n m, .uv n m, .oc n m, .short n m, .openSense n m, .stageOt n m, .ssto n m, .trackErr n m],
        Leaves i s s) ∧ Leaves (.stageFlt n m) s pin) ∧
    (∀ z, s.snap = some z → u.code = 0 → u.gen = (mget dUnit z.units n).gen + 1 → (mget dUnit z.units n).code = 3 →
      ∃ t, Leaves (.ssto n m) s t ∧ t.unit n = { u with code := 0xF } ∧ (∀ k, k ≠ n.val → t.unit k = s.unit k) ∧
        t.reg 0x1604 = wd (1 + 16 * min n.val (field (s.reg 0x1604) 8 4)) ∧
        bit (t.reg (0x1011 + 0x40 * n)) 3 = true ∧
        t.recsDue.length = s.recsDue.length + 1 ∧ t.occs.length = s.occs.length + 1)

/-- LDOs and supervisors (R156 to R158, R163 to R165): PG, the output at 15/16 of the set point, completes a start; a
start that times out and a loss of PG detect and stop every rail; a supervisor's input beyond its threshold for FILT + 1
cycles sets its flag and, where RESP is 1, stops every rail, and the event ends when the input is back inside by more
than the hysteresis. What rests on log entries 26, 62 and 76 is this model's choice or inference. -/
def Obligations.LdosAndSupervisors : Prop :=
  (∀ (s : State) (n : Fin 8) (out : Word),
    let k := 0x10 + n.val
    let u := s.unit k
    let a := 0x1400 + 0x20 * n.val
    let good := 15 * (s.reg (a + 2)).toNat ≤ 16 * out.toNat
    let pg := s.setLdo n { s.ldo n with pg := true }
    let lost (code : Byte) : State :=
      let t := coldStop s 1 k fun j => j == k
      { t with snap := some { units := s.units, rails := s.rails, ldos := s.ldos, regs := s.regs } }.occur 1 k code
        (some (t.reg 0x1604))
    (u.code = 2 → good → Leaves (.ldoPgRise n out) s
      ((pg.setUnit k { u with code := 4, busy := false }).setReg (a + 5) (s.reg (a + 5) ||| 1))) ∧
    (u.code = 4 → (s.ldo n).pg = false → good → Leaves (.ldoPgRise n out) s (pg.setReg (a + 5) (s.reg (a + 5) ||| 1))) ∧
    (¬good → Leaves (.ldoPgRise n out) s s) ∧
    (u.code = 2 → Leaves (.pgTimeout n) s (lost 0x0A)) ∧
    (u.code = 4 → ¬good → Leaves (.pgLoss n out) s (lost 0x0B)) ∧
    (good → Leaves (.pgLoss n out) s s)) ∧
  (∀ (s : State) (n : Fin 32) (high : Bool) (uv cycles : Nat),
    let cfg := s.reg (0x1501 + 8 * n)
    let x := s.sup n
    let ovT := (s.reg (0x1502 + 8 * n)).toNat
    let uvT := (s.reg (0x1503 + 8 * n)).toNat % 4096
    let hyst := (s.reg (0x1503 + 8 * n)).toNat / 4096
    let long := cfg.toNat / 128 % 256 + 1 ≤ cycles
    let beyond := if high then 1500 * ovT < uv else uv < 1500 * uvT
    let inside := if high then uv + 1500 * hyst < 1500 * ovT else 1500 * (uvT + hyst) < uv
    let y : Sup := if high then { x with ov := true } else { x with uv := true }
    let m := (s.setSup n y).setReg (0x1504 + 8 * n) (s.reg (0x1504 + 8 * n) ||| (if high then 1 else 2))
    let stop : State := if stoppedNow m then m else
      { coldStop m 1 0x1F fun _ => false with
        snap := some { units := m.units, rails := m.rails, ldos := m.ldos, regs := m.regs } }
    (bit cfg 0 = true → long → beyond → (if high then x.ov = false else x.uv = false ∧ uvArmed s n = true) →
      (bit cfg 1 = false → Leaves (.svEventBegin n high uv cycles) s m) ∧
      (bit cfg 1 = true → Leaves (.svEventBegin n high uv cycles) s
        (stop.occur 1 (0x20 + n) (if high then 0x0C else 0x0D)
          (if stoppedNow m then none else some (stop.reg 0x1604))))) ∧
    (bit cfg 0 = false ∨ ¬long ∨ ¬beyond → Leaves (.svEventBegin n high uv cycles) s s) ∧
    (long → inside → Leaves (.svEventEnd n high uv cycles) s
      (s.setSup n (if high then { x with ov := false } else { x with uv := false }))) ∧
    (¬long ∨ ¬inside → Leaves (.svEventEnd n high uv cycles) s s))

/-- The cold stop (R122, R156, R189 to R193, R195, R277): every rail and LDO goes OFF by one transition, FAULTED where
it detected the fault or already was; a gang follower is not affected; ON clears, the table stops, the cause is
recorded, and STOP_N is driven unless the stop came from it. What rests on log entries 57 and 62 is this model's choice
or inference. -/
def Obligations.ColdStop : Prop :=
  ∀ (s : State) (cause rail : Nat) (detected : Nat → Bool),
    let t := coldStop s cause rail detected
    (∀ k, k < 24 → (s.unit k).code ≠ 7 → t.unit k = { s.unit k with
      code := if detected k ∨ (s.unit k).code = 0xF then 0xF else 0, busy := false, gen := (s.unit k).gen + 1, src := 5 }) ∧
    (∀ k, k < 24 → (s.unit k).code = 7 → t.unit k = s.unit k) ∧
    (∀ k, 24 ≤ k → t.unit k = s.unit k) ∧
    (∀ k, k < 24 → t.reg (railBase k + 1) = s.reg (railBase k + 1) &&& 0xFFFE) ∧
    (∀ k, k < 16 → t.rail k = { s.rail k with
      pg := false, hushed := false, ilim := 0, disch := true, checked := false, tracking := false, after := none
      eff := none }) ∧
    (∀ k, k < 8 → t.ldo k = { pg := false, ilim := false, disch := true }) ∧
    t.reg 0x1604 = wd (cause + 16 * rail) ∧
    t.seq = { s.seq with st := 6, waiting := false, retry := false, left := [], started := [], entered := false } ∧
    t.stopN = (if bit (s.reg 0x1601) 0 ∧ cause ≠ 3 then { s.stopN with drv := true } else s.stopN) ∧
    t.floor = { s.floor with stopReq := s.floor.stopReq || (bit (s.reg 0x1601) 2 && s.floor.timed && cause != 4) } ∧
    t.ring = (if s.ring.live = true ∧ bit (s.reg 0x4000) 0 = true ∧ bit (s.reg 0x4000) 5 = true then
      { s.ring with estopTx := true, estopN := [] } else s.ring) ∧
    t = { s with units := t.units, rails := t.rails, ldos := t.ldos, regs := t.regs, slots := t.slots, fresh := t.fresh,
                 seq := t.seq, stopN := t.stopN, floor := t.floor, ring := t.ring } ∧
    (∀ a, a < 0x1000 ∨ (0x1605 ≤ a ∧ a < 0x1800) ∨ 0x1840 ≤ a → t.reg a = s.reg a)

-- faults (07_fault_handling.md)

/-- Supplies, temperatures and ERR_N (R232, R237, R247, R256 to R258, R650, R664, R688): a supply beyond its threshold,
with the threshold's tolerance, or outside its window makes its condition present, which is one occurrence; the shutdown
temperature is a cold stop first; the warning temperature is compared exactly, and a reading of 110 °C or less ends
DIE_SHUT; a kiln whose conditions fail is to end (R626); an ERR_N low from outside is shown and nothing else. That a
report anywhere within a threshold's tolerance is judged as it says is the model's choice (log entry 76), as is that no
reversal latches with VBAT_RTC outside its range (log entry 75). A condition that becomes absent (R247, R590, R650,
R664, R688): PRESENT clears, TRANSIENT sets where PEND is 1, COUNT and PEND stay, and the live state it came from is
good again; a supply, a temperature or the timebase that still makes the condition changes nothing (within a threshold's
tolerance the report decides, log entry 76). What rests on log entries 21, 75 and 76 is this model's choice or
inference. -/
def Obligations.ConditionsPresentAndAbsent : Prop :=
  (∀ (s : State) (degC : Int) (low : Bool) (v : Nat) (mv : Int) (vbat : Nat),
    let hot := readsDie s degC
    let sup (f : Supply → Supply) : State := { s with supply := f s.supply }
    let off (src : Fin 8) (trips : Prop) (m : State) : Prop :=
      (trips → s.present 0 src = false → Leaves (.supplyFault src v) s (raised m 0 src)) ∧
      (trips → s.present 0 src = true → Leaves (.supplyFault src v) s m) ∧
      (¬trips → Leaves (.supplyFault src v) s s)
    let shut := shutsDown hot
    (s.present 2 1 = false → 120 ≤ degC → Leaves (.dieShut degC) s shut) ∧
    (s.present 2 1 = true ∨ degC < 120 → Leaves (.dieShut degC) s s) ∧
    (s.present 2 1 = true ∨ degC < 130 → Leaves (.dieWarn degC) s hot) ∧
    (s.present 2 1 = false → 130 ≤ degC → Leaves (.dieWarn degC) s shut) ∧
    (s.present 2 2 = false → Leaves .refReg s (raised { s with mea := { s.mea with refReady := false } } 2 2)) ∧
    (s.present 2 2 = true → Leaves .refReg s { s with mea := { s.mea with refReady := false } }) ∧
    off 0 (v ≤ 4400) (kilnWatch (sup fun x => { x with vsysOk := false })) ∧
    off 1 (28500 ≤ v) (kilnWatch (sup fun x => { x with vsysOk := false })) ∧
    Leaves (.supplyFault 2 v) s s ∧
    off 3 (v < 1710 ∨ 1890 < v) (sup fun x => { x with aonOk := false }) ∧
    off 4 (v < 600 ∨ 900 < v) (sup fun x => { x with coreOk := false }) ∧
    (s.ring.live = true → off 5 (v < 830 ∨ 970 < v) (ringDown (sup fun x => { x with serOk := false })) ∧
      off 6 (v < 1110 ∨ 1290 < v) (ringDown (sup fun x => { x with seraOk := false }))) ∧
    (s.ring.live = false →
      (v < 830 ∨ 970 < v → Leaves (.supplyFault 5 v) s (sup fun x => { x with serOk := false })) ∧
      (v < 1110 ∨ 1290 < v → Leaves (.supplyFault 6 v) s (sup fun x => { x with seraOk := false }))) ∧
    off 7 (v ≤ 1500) (sup fun x => { x with vbatOk := false }) ∧
    (mv < -1000 → 1500 ≤ vbat → vbat ≤ 3600 →
      Leaves (.vsysRevLatch mv vbat) s (sup fun x => { x with revLatch := true })) ∧
    (-1000 ≤ mv ∨ vbat < 1500 ∨ 3600 < vbat → Leaves (.vsysRevLatch mv vbat) s s) ∧
    Leaves (.errNInput low) s { s with errN := { s.errN with low := low } }) ∧
  (∀ (s : State) (cls : Fin 10) (src : Byte) (val : Int),
    let k := 256 * cls.val + src.toNat
    let f := s.flt k
    let i := Instr.faultConditionClear cls src val
    let ser := cls = 0 ∧ (src = 5 ∨ src = 6)
    let die := cls = 2 ∧ (src = 0 ∨ src = 1)
    let windows : List (Byte × Int × Int) := [(3, 1710, 1890), (4, 600, 900), (5, 830, 970), (6, 1110, 1290)]
    let ends := (cls = 0 → 0 ≤ val) ∧ (cls = 0 → src = 0 → 4350 ≤ val) ∧ (cls = 0 → src = 1 → val ≤ 30000) ∧
      (cls = 0 → src = 7 → 1450 ≤ val) ∧ (∀ w ∈ windows, cls = 0 → src = w.1 → w.2.1 ≤ val ∧ val ≤ w.2.2) ∧
      (cls = 2 → src = 0 → val < (s.reg 0x0805).toNat) ∧ (cls = 2 → src = 1 → val ≤ 120) ∧
      (cls = 9 → src = 1 → bit (s.reg 0x5890) 0 = false ∨ bit (s.reg 0x5891) 0 = true)
    (f.present = false ∨ ¬ends → Leaves i s s) ∧
    (f.present = true → ends → die → Leaves i s (readsDie (cleared s 2 src.toNat) val)) ∧
    (f.present = true → ends → cls ≠ 4 → cls ≠ 5 → ¬die → ∃ t, Leaves i s t ∧
      t.flt k = { f with present := false, transient := f.transient || f.pend } ∧
      (¬ser → (∀ j, j ≠ k → t.flt j = s.flt j) ∧
        t = { s with fsrc := t.fsrc, supply := t.supply, mea := t.mea, i2ca := t.i2ca, i2cb := t.i2cb, rtc := t.rtc }) ∧
      (cls = 0 → src = 0 → t.supply = { s.supply with vsysOk := !s.present 0 1 }) ∧
      (cls = 0 → src = 1 → t.supply = { s.supply with vsysOk := !s.present 0 0 }) ∧
      (cls = 0 → src = 3 → t.supply = { s.supply with aonOk := true }) ∧
      (cls = 0 → src = 4 → t.supply = { s.supply with coreOk := true }) ∧
      (cls = 0 → src = 5 → t.supply.serOk = true) ∧ (cls = 0 → src = 6 → t.supply.seraOk = true) ∧
      (cls = 0 → src = 7 → t.supply = { s.supply with vbatOk := true }) ∧
      (cls = 9 → src = 3 → t.rtc = { s.rtc with oscok := true }) ∧
      (cls ≠ 0 → t.supply = s.supply) ∧ (¬(cls = 9 ∧ src = 3) → t.rtc = s.rtc) ∧
      (¬(cls = 2 ∧ src = 2) → t.mea = s.mea) ∧ (cls ≠ 6 → t.i2ca = s.i2ca ∧ t.i2cb = s.i2cb)))

/-- The collector takes an occurrence (R234 to R236, R243 to R247, R254, R255, R286, R335): the effective level, the
record and the counts, the FAULT entry of the log and its COLD_STOP entry, the fence or the block reset of the unit it
names, the NMIs, ERR_N, and at level 6 the chip reset. What rests on log entry 56 is this model's choice or inference. -/
def Obligations.OccurrenceTaken : Prop :=
  ∀ (s : State) (k : Nat) (o : Occ), collecting s = true → s.occs[k]? = some o → o.cls < 10 → o.src < 256 →
    let key := 256 * o.cls + o.src
    let lvl := (mget dLvl s.flvl key).toNat
    let un := s.unack.getLsbD o.cls
    let eff := if un then min 6 (lvl + 1) else lvl
    let head := wd (o.src + 256 * eff + if eff = lvl then 0 else 2048)
    let a := 0x0810 + 8 * o.cls
    let slot := (s.reg 0x0C02).toNat
    let fences := ∃ n, o.unit = some n ∧ canFence n = true ∧ 3 ≤ eff
    let lane := ∃ n, o.unit = some n ∧ 0x48 ≤ n ∧ n ≤ 0x4B
    (eff < 6 → ∃ t, Leaves (.faultOccurrence k) s t ∧ s.occs.eraseIdx k <+: t.occs ∧
      (t.flt key).count = (if (s.flt key).count = 255 then 255 else (s.flt key).count + 1) ∧ (t.flt key).pend = true ∧
      t.reg (a + 2) = head ∧ t.reg (a + 3) = wd (min 0xFFFF ((s.reg (a + 3)).toNat + 1)) ∧
      (1 ≤ eff → un = false → t.reg a = head ∧ t.reg (a + 1) = wd (o.det.toNat + 256 * o.gen.toNat) ∧
        (List.range 4).map (fun i => t.reg (a + 4 + i)) = timeWords o.time) ∧
      (un = true ∨ eff = 0 → ∀ i, i < 8 → i ≠ 2 → i ≠ 3 → t.reg (a + i) = s.reg (a + i)) ∧
      t.unack = (if 1 ≤ eff then s.unack ||| (1#10 <<< o.cls) else s.unack) ∧
      t.errnHold = (if 5 ≤ eff then s.errnHold ||| (1#10 <<< o.cls) else s.errnHold) ∧
      t.errN.drv = (s.errN.drv || (bit (s.reg 0x0800) 0 && t.errnHold != 0)) ∧ t.errN.low = s.errN.low ∧
      (bit (s.reg 0x0C00) 0 = false → s.logLost = 0 → slot < 4096 →
        [0, 8, 9, 10, 11].map (fun i => mget dZero t.log (slot * 16 + i)) =
          [wd (1 + flag o.inj 8), wd key, wd (o.det.toNat + 256 * eff + if eff = lvl then 0 else 2048),
           (o.unit.map wd).getD 0xFFFF, o.gen.setWidth 16] ∧
        (∀ w, o.stop = some w → mget dZero t.log ((slot + 1) % 4096 * 16) = 0x0002 ∧
          mget dZero t.log ((slot + 1) % 4096 * 16 + 8) = w)) ∧
      (∀ n, o.unit = some n → canFence n = true → 3 ≤ eff → (t.unit n).fenced = true ∧
        (t.unit n).gen = (s.unit n).gen + 1 ∧
        -- a lane reads OFF while the ring island is in reset (R431)
        (4 ≤ eff → if 0x48 ≤ n ∧ n < 0x4C ∧ s.ring.live = false then (t.unit n).code = 0 ∧ (t.unit n).busy = false
          else (t.unit n).code = 0xE ∧ (t.unit n).busy = true)) ∧
      (∀ n, ¬(o.unit = some n ∧ canFence n = true ∧ 3 ≤ eff) → ¬(lane ∧ 0x48 ≤ n ∧ n ≤ 0x4B) → t.unit n = s.unit n) ∧
      (∀ n, n < 4 → 2 ≤ eff → bit (s.reg 0x0800) (4 + n) = true → (t.unit (0x38 + n)).fenced = false →
        (t.eng n).nmipend = true) ∧
      (∀ n, n < 4 → (eff < 2 ∨ bit (s.reg 0x0800) (4 + n) = false) → (t.eng n).nmipend = (s.eng n).nmipend) ∧
      (∀ n, n < 4 → o.cls = 7 → o.inj = false → o.src = 8 * n → (s.eng n).xcpt = some (.illegal, false) →
        (t.eng n).xcpt = some (.illegal, true)) ∧
      (1 ≤ eff → o.hold ≠ 0 → t.irq.holds = s.irq.holds ++ [(o.cls, o.hold)]) ∧
      t = { s with occs := t.occs, fsrc := t.fsrc, regs := t.regs, unack := t.unack, errnHold := t.errnHold, log := t.log,
                   logSeq := t.logSeq, logLost := t.logLost, irq := t.irq, units := t.units, engs := t.engs,
                   errN := t.errN, timers := t.timers, chg := t.chg, mea := t.mea, i2cb := t.i2cb, ring := t.ring,
                   floor := t.floor, fresh := t.fresh } ∧
      (¬fences → t.timers = s.timers ∧ t.chg = s.chg ∧ t.mea = s.mea ∧ t.i2cb = s.i2cb ∧ t.ring = s.ring ∧ t.floor = s.floor ∧
        t.occs = s.occs.eraseIdx k)) ∧
    (eff = 6 → ∃ t, Leaves (.faultOccurrence k) s t ∧ t.boot.reset = some .fault ∧ t.boot.phase = .otpSensing ∧
      bit (t.reg 0x002E) 3 = true ∧ ∀ n, t.unit n = {})

/-- Acknowledgement and the counts (R122, R248, R250, R252, R254, R286): FLT_ACK clears the records, PEND and TRANSIENT
of its classes and leaves PRESENT and COUNT; class RAIL takes every FAULTED rail and LDO to OFF; FLT_SCNT clears one
COUNT. The end of a block reset (R239, R240, R242, R281): OFF with FENCED set, live registers at their reset values,
staged fields as committed; an SPI port, which never uses OFF, READY (the model's reading of R557, log entry 58); what a
lane's link is to the ring is judged anew. ERR_N is released when no class holds it (R255). What rests on log entries
56, 57 and 58 is this model's choice or inference. -/
def Obligations.FaultAcknowledgement : Prop :=
  (∀ (s : State) (r : Req) (val : Word), Canonical s → admitted s r = true →
    let key := 256 * field (s.reg 0x0808) 11 8 + field (s.reg 0x0808) 7 0
    (val ≤ 0x03FF → ∃ t, Leaves (.fltAck r val) s t ∧
      (∀ a, 0x0810 ≤ a → a < 0x0860 → t.reg a = if bit val ((a - 0x0810) / 8) then 0 else s.reg a) ∧
      (∀ k, t.flt k = if bit val (k / 256) then { s.flt k with pend := false, transient := false } else s.flt k) ∧
      t.unack = s.unack &&& ~~~(val.setWidth 10) ∧ t.errnHold = s.errnHold &&& ~~~(val.setWidth 10) ∧
      t.irq = { s.irq with holds := s.irq.holds.filter fun h => !(h.1 < 10 && bit val h.1),
                           saved := t.irq.saved } ∧
      (∀ k, k < 24 → t.unit k = if bit val 1 && (s.unit k).code == 0xF
        then { s.unit k with code := 0, busy := false, gen := (s.unit k).gen + 1, src := r.src } else s.unit k) ∧
      (∀ k, 24 ≤ k → t.unit k = s.unit k) ∧
      t = { s with regs := t.regs, fsrc := t.fsrc, unack := t.unack, errnHold := t.errnHold, irq := t.irq,
                   units := t.units, log := t.log, logSeq := t.logSeq, logLost := t.logLost, slots := t.slots,
                   fresh := t.fresh }) ∧
    Leaves (.fltScnt r 0) s (s.setFlt key { s.flt key with count := 0 }) ∧
    (val ≠ 0 → Leaves (.fltScnt r val) s (s.setReq r { s.req r with lasterr := 0x0101 }))) ∧
  (∀ (s : State) (u : Fin 256),
    let x := s.unit u
    let lanes (n : Nat) : Prop := 0x48 ≤ u.val ∧ u.val < 0x4C ∧ 0x48 ≤ n ∧ n < 0x4C
    (x.code = 0xE → ∃ t, Leaves (.blockResetDone u) s t ∧ t.unit u = { x with code := if u.val = 0x56 ∨ u.val = 0x57 then 1 else 0, busy := false } ∧
      (∀ n, n ≠ u.val → ¬lanes n → t.unit n = s.unit n) ∧
      (∀ a, unitOfAddr a = some u.val → (regInfo a).acc ≠ .rws → keptOverBlock a = false → a ≠ 0x4812 →
        t.reg a = resetValue a) ∧
      (∀ a, (regInfo a).acc = .rws → (∀ n, n < 4 → a ≠ 0x2001 + 0x40 * n) → a ≠ 0x1A01 → t.reg a = s.reg a) ∧
      (∀ a, unitOfAddr a ≠ some u.val → ¬(0x48 ≤ u.val ∧ u.val < 0x4C ∧ 0x4000 ≤ a ∧ a < 0x4080) → t.reg a = s.reg a) ∧
      (∀ n : Fin 4, u.val = 0x38 + n.val → bit (t.reg (0x2001 + 0x40 * n)) 0 = false ∧ t.req (.engine n) = {} ∧
        t.irq.clmOf n = 0) ∧
      (u.val = 0x057 → t.req .spt = { lasterr := (s.req .spt).lasterr } ∧ t.spt = {}) ∧
      (u.val = 0x058 → t.req .i2ca = { lasterr := (s.req .i2ca).lasterr }) ∧
      (u.val = 0x05A → t.req .uart = { lasterr := (s.req .uart).lasterr })) ∧
    (x.code ≠ 0xE → Leaves (.blockResetDone u) s s) ∧
    (s.errnHold = 0 ∨ bit (s.reg 0x0800) 0 = false →
      Leaves .errNRelease s { s with errN := { s.errN with drv := false } }) ∧
    (s.errnHold ≠ 0 → bit (s.reg 0x0800) 0 = true → Leaves .errNRelease s s))

/-- The record store (R151 to R153, R259, R260, R262): where the oldest record due goes, its sequence number and CRC,
and what NEWEST and COUNT read; the erasure keeps the sequence count. Injected occurrences (R262). What rests on log
entry 56 is this model's choice or inference. -/
def Obligations.RecordStore : Prop :=
  ∀ (s : State) (r : Req) (verified : Bool),
    let a := bankArg s r
    let q (op : Word) : State := setBank s r 0 op
    let cls := field (a 0) 11 8
    let src := field (a 0) 7 0
    (∀ body rest, s.recsDue = body :: rest → body.length = 44 →
      let count := (s.reg 0x0862).toNat
      let slot := if count = 0 then 0 else ((s.reg 0x0860).toNat + 1) % 64
      let ws := body ++ [s.storeSeq + 1, 0, 0]
      ∃ t, Leaves (.lastFaultRecordWrite verified) s (if verified then t else t.occur 8 4 0) ∧
        t = { s with recsDue := rest, storeSeq := s.storeSeq + 1, store := t.store, regs := t.regs } ∧
        (∀ i, i < 48 → mget dZero t.store (slot * 48 + i) = (ws ++ [crc16words ws]).getD i 0) ∧
        (∀ i, i / 48 ≠ slot → mget dZero t.store i = mget dZero s.store i) ∧
        (∀ b, t.reg b = if b = 0x0860 then wd slot else if b = 0x0862 then wd (min 64 (count + 1)) else s.reg b)) ∧
    (s.recsDue = [] → Leaves (.lastFaultRecordWrite verified) s s) ∧
    (commandable s r = true → a 0 = 0x5E7A → s.recsDue = [] →
      Leaves (.fltStoreErase r) s
        (finishCmd (({ q 0x0402 with store := [] }.setReg 0x0860 0).setReg 0x0862 0) r 0 [])) ∧
    (commandable s r = true → a 0 = 0x5E7A → s.recsDue ≠ [] →
      Leaves (.fltStoreErase r) s (finishCmd (q 0x0402) r 0x0302 [])) ∧
    (commandable s r = true → a 0 ≠ 0x5E7A → Leaves (.fltStoreErase r) s (finishCmd (q 0x0402) r 0x0101 [])) ∧
    (commandable s r = true → a 0 &&& 0xF000 = 0 → a 1 &&& 0xFF00 = 0 →
      ((srcInfo cls src).isSome = true → cls ≠ 1 → ¬(cls = 2 ∧ src = 1) →
        Leaves (.fltInject r) s (finishCmd ((q 0x0401).occur cls src ((a 1).setWidth 8) none true) r 0 [])) ∧
      ((srcInfo cls src).isNone = true ∨ cls = 1 ∨ (cls = 2 ∧ src = 1) →
        Leaves (.fltInject r) s (finishCmd (q 0x0401) r 0x0101 [])))

-- the sequencer and STOP_N (05_sequencing_and_cold_stop.md)

/-- SEQ_POWER_ON, SEQ_SHUTDOWN and SEQ_COLD_STOP (R183, R185, R186, R191 to R193): the states they start in, what they
start, and SEQ_ST in RES0. What rests on log entry 62 is this model's choice or inference. -/
def Obligations.SequencerOperations : Prop :=
  ∀ (s : State) (r : Req), commandable s r = true →
    let st := s.seq.st
    let q (op : Word) : State := setBank s r 0 op
    let blocked := bit (s.reg 0x1601) 1 = true ∧ stopLow s = true
    let stop := coldStop (q 0x0303) 5 0x1F fun _ => false
    let logged := logPut stop 0x02 false [stop.reg 0x1604]
    (st = 0 ∨ st = 4 ∨ st = 5 ∨ st = 6 → ¬blocked →
      Leaves (.seqPowerOn r) s (finishCmd { q 0x0301 with
        seq := { st := 1 }
        boot := if s.boot.phase = .ready then { s.boot with phase := .running } else s.boot } r 0 [0x0001])) ∧
    (st = 1 ∨ st = 2 ∨ st = 3 ∨ st = 7 ∨ blocked → Leaves (.seqPowerOn r) s (finishCmd (q 0x0301) r 0x0201 [])) ∧
    (st ≠ 3 → Leaves (.seqShutdown r) s
      (finishCmd { q 0x0302 with seq := { st := 3, table := true } } r 0 [0x000B])) ∧
    (st = 3 → Leaves (.seqShutdown r) s (finishCmd (q 0x0302) r 0x0201 [])) ∧
    (bankArg s r 0 = 0x5709 → Leaves (.seqColdStop r) s (finishCmd logged r 0 [seqWord logged])) ∧
    (bankArg s r 0 ≠ 0x5709 → Leaves (.seqColdStop r) s (finishCmd (q 0x0303) r 0x0101 []))

/-- Steps of a table (R170, R173, R177 to R182): entering a step, its requests in ascending rail code, the retry, the
conditions and the timeout. A step failure (R182): the record, the occurrence, and what ONFAIL does; SHUTDOWN starts the
shutdown table, COLDSTOP is a cold stop, SKIP goes on. What rests on log entries 23 and 62 is this model's choice or
inference. -/
def Obligations.SequencerSteps : Prop :=
  (∀ (s : State), s.seq.st = 1 ∨ s.seq.st = 3 →
    let w (i : Nat) : Word := mget dZero s.seqTab (((if s.seq.table then 96 else 0) + s.seq.step) * 4 + i)
    let act := field (w 0) 1 0
    let cond := field (w 1) 3 0
    let arg := field (w 1) 11 4
    let tun (k : Nat) : Nat := field (s.reg (0x1608 + k / 4)) (4 * (k % 4) + 2) (4 * (k % 4))
    let targets := if bit (w 0) 2 then (List.range 24).filter fun k => tun k == field (w 0) 5 3 && !isFollower s k
      else [field (w 0) 7 3]
    let over_ (x : SeqSt) : SeqSt := { x with waiting := false, retry := false, left := [], started := [], entered := false }
    let on : State := { s with seq := { s.seq with entered := true } }
    let next (m : State) : State := if 95 ≤ m.seq.step
      then { m with seq := over_ { m.seq with st := if m.seq.table then 4 else 2 } }
      else { m with seq := { st := m.seq.st, table := m.seq.table, step := m.seq.step + 1 } }
    let met (delay : Bool) : List Bool := [true, targets.all fun k => (s.unit k).code == 4,
      targets.all fun k => (s.unit k).code == 0 || (s.unit k).code == 0xF,
      !(s.sup arg).ov && !(s.sup arg).uv && uvArmed s arg, delay, s.ring.release.getLsbD arg, s.floor.release.getLsbD arg,
      s.irq.pend.getLsbD (0x100 + arg)]
    let runs := act ≠ 3 ∧ field (w 3) 13 0 ≠ 0 ∧ (cond = 5 → s.supply.serOk = true ∧ s.supply.seraOk = true)
    (s.seq.entered = false →
      (act = 3 → Leaves .seqStepEnter s
        { s with seq := over_ { s.seq with st := if s.seq.table then 4 else 2 } }) ∧
      (act ≠ 3 → field (w 3) 13 0 = 0 → Leaves .seqStepEnter s (stepFail on 0x0101)) ∧
      (act ≠ 3 → field (w 3) 13 0 ≠ 0 → cond = 5 → s.supply.serOk = false ∨ s.supply.seraOk = false →
        Leaves .seqStepEnter s (stepFail on 0x0402)) ∧
      (runs → act = 0 → Leaves .seqStepEnter s { s with seq := { s.seq with entered := true, waiting := true } }) ∧
      (∀ k, runs → act = 1 ∨ act = 2 → targets = [k] →
        let rq : RailReq := if act = 1 then .on else .off
        let c := if isFollower s k then 0x0201 else railCode s k true none rq
        let idle := (act = 1 ∧ (s.unit k).code = 4) ∨ (act = 2 ∧ ((s.unit k).code = 0 ∨ (s.unit k).code = 0xF))
        (c = 0 → ∃ t, Leaves .seqStepEnter s t ∧ t.seq.waiting = true ∧ t.seq.retry = false ∧ t.seq.left = [] ∧
          t.seq.st = s.seq.st ∧ t.seq.step = s.seq.step ∧
          t = { railDo on k 3 none (fun j => s.seq.started.contains j) rq with seq := t.seq }) ∧
        (c = 0x0201 → idle → Leaves .seqStepEnter s
          { s with seq := { s.seq with entered := true, waiting := true, retry := false, left := [] } }) ∧
        (c = 0x0302 → Leaves .seqStepEnter s
          { s with seq := { s.seq with entered := true, waiting := false, retry := true, left := [k] } }) ∧
        (c ≠ 0 → c ≠ 0x0302 → ¬(c = 0x0201 ∧ idle) → Leaves .seqStepEnter s (stepFail on c))) ∧
      (runs → act = 1 ∨ act = 2 → Leaves .seqStepEnter s (afterAction (stepRequests on targets (act = 1))))) ∧
    (s.seq.retry = true → Leaves .seqActionRetry s (afterAction (stepRequests s s.seq.left (act = 1)))) ∧
    (s.seq.retry = false → Leaves .seqActionRetry s s) ∧
    (s.seq.waiting = true → (met true)[cond]? = some true → Leaves .seqConditionMet s (next s)) ∧
    (s.seq.waiting = false ∨ (met true)[cond]? ≠ some true → Leaves .seqConditionMet s s) ∧
    (s.seq.entered = true → s.seq.waiting = true → (met false)[cond]? = some true →
      Leaves .seqStepTimeout s (next s)) ∧
    (s.seq.entered = true → s.seq.waiting = false ∨ (met false)[cond]? ≠ some true →
      Leaves .seqStepTimeout s (stepFail s 0x0403))) ∧
  (∀ (s : State) (code : Word),
    let at_ := s.seq.step + if s.seq.table then 128 else 0
    let onfail := field (mget dZero s.seqTab (((if s.seq.table then 96 else 0) + s.seq.step) * 4)) 9 8
    let m := (s.setReg 0x1602 (wd at_)).setReg 0x1603 code
    let det : Byte := BitVec.ofNat 8 at_
    let stop := coldStop m 6 0x1F fun _ => false
    let ended : SeqSt := { s.seq with waiting := false, retry := false, left := [], started := [], entered := false }
    (onfail = 0 → stepFail s code = { m with seq := { ended with st := 5 } }.occur 9 0 det) ∧
    (onfail = 1 → stepFail s code = { m with
      seq := { st := 3, table := true } }.occur 9 0 det) ∧
    (onfail = 2 → stepFail s code = stop.occur 9 0 det (some (stop.reg 0x1604))) ∧
    (onfail = 3 → stepFail s code = { m with
      seq := if 95 ≤ s.seq.step then { ended with st := if s.seq.table then 4 else 2 }
        else { st := s.seq.st, table := s.seq.table, step := s.seq.step + 1 } }.occur 9 0 det))

/-- The step window (R171 to R176): SEQ_WIN_SEL loads the selected step into W0 to W3; SEQ_WIN_W3 stores the four words
as the selected step, or is rejected for a reserved bit, a value out of range or a running table. The ranges are those
of R171, R172 and R174. What rests on log entry 62 is this model's choice or inference. -/
def Obligations.StepWindow : Prop :=
  ∀ (s : State) (r : Req) (val : Word), admitted s r = true →
    let key (sel : Word) (i : Nat) : Nat := ((if bit sel 8 then 96 else 0) + field sel 6 0) * 4 + i
    let sel := s.reg 0x1610
    let w (i : Nat) : Word := s.reg (0x1611 + i)
    let cond := field (w 1) 3 0
    let carg := field (w 1) 11 4
    let count := field val 13 0
    let unit := field val 15 14
    let limit := count * (if unit = 0 then 1 else if unit = 1 then 100 else 10000)
    let good := (field (w 0) 1 0 = 3 → w 0 = 3 ∧ w 1 = 0 ∧ w 2 = 0 ∧ val = 0) ∧
      (field (w 0) 1 0 ≠ 3 →
        (bit (w 0) 2 = false → field (w 0) 7 3 ≤ 0x17) ∧ (bit (w 0) 2 = true → field (w 0) 7 3 ≤ 7) ∧
        (bit sel 8 = true → field (w 0) 9 8 ≠ 1) ∧ cond ≤ 7 ∧ (cond = 3 → carg ≤ 31) ∧ (cond = 7 → carg ≤ 127) ∧
        (cond = 0 ∨ cond = 1 ∨ cond = 2 ∨ cond = 4 → carg = 0) ∧
        (cond = 4 → w 2 ≠ 0 ∧ (w 2).toNat < limit) ∧ (cond ≠ 4 → w 2 = 0) ∧ 1 ≤ count ∧ unit ≠ 3)
    let clean := field (w 0) 1 0 = 3 ∨ (w 0 &&& 0xFC00 = 0 ∧ w 1 &&& 0xF000 = 0)
    let rejected (c : Word) : State := s.setReq r { s.req r with lasterr := c }
    (val &&& 0xFE80 = 0 → field val 6 0 < 96 → ∃ t, Leaves (.seqWinSelWrite r val) s t ∧ t = { s with regs := t.regs } ∧
      t.reg 0x1610 = val ∧ (∀ i, i < 4 → t.reg (0x1611 + i) = mget dZero s.seqTab (key val i)) ∧
      (∀ a, a < 0x1610 ∨ 0x1615 ≤ a → t.reg a = s.reg a)) ∧
    (val &&& 0xFE80 = 0 → 96 ≤ field val 6 0 → Leaves (.seqWinSelWrite r val) s (rejected 0x0101)) ∧
    (good → clean → seqRunning s = false → ∃ t, Leaves (.seqWinW3Write r val) s t ∧
      t = { s with regs := t.regs, seqTab := t.seqTab } ∧ t.reg 0x1614 = val ∧ (∀ a, a ≠ 0x1614 → t.reg a = s.reg a) ∧
      (∀ i, i < 3 → mget dZero t.seqTab (key sel i) = w i) ∧ mget dZero t.seqTab (key sel 3) = val ∧
      (∀ k, k < key sel 0 ∨ key sel 3 < k → mget dZero t.seqTab k = mget dZero s.seqTab k)) ∧
    (good → clean → seqRunning s = true → Leaves (.seqWinW3Write r val) s (rejected 0x0302)) ∧
    (¬good → clean → Leaves (.seqWinW3Write r val) s (rejected 0x0101)) ∧
    (¬clean → Leaves (.seqWinW3Write r val) s (rejected 0x0102))

/-- STOP_N (R186, R195 to R197): a fall causes a cold stop unless the input is masked; the release masks it; a low at
the end of the mask causes a cold stop. A received low is never driven on. What rests on log entry 62 is this model's
choice or inference. -/
def Obligations.StopLine : Prop :=
  ∀ (s : State) (low : Bool),
    let x := s.stopN
    let stopped (m : State) : State :=
      let t := coldStop m 3 0x1F fun _ => false
      logPut t 0x02 false [t.reg 0x1604]
    let fell : State := { s with stopN := { x with low := low } }
    let ended : State := { s with stopN := { drv := false, timed := false, low := low } }
    (x.drv = false → x.timed = false → bit (s.reg 0x1601) 1 = true → Leaves (.stopNFall low) s (stopped fell)) ∧
    (x.drv = true ∨ x.timed = true ∨ bit (s.reg 0x1601) 1 = false → Leaves (.stopNFall low) s fell) ∧
    (x.drv = true → Leaves (.stopNRelease low) s { s with stopN := { drv := false, timed := true, low := low } }) ∧
    (x.drv = false → Leaves (.stopNRelease low) s s) ∧
    (x.timed = true → x.drv = false →
      (low = true → bit (s.reg 0x1601) 1 = true → Leaves (.stopNMaskEnd low) s (stopped ended)) ∧
      (low = false ∨ bit (s.reg 0x1601) 1 = false → Leaves (.stopNMaskEnd low) s ended)) ∧
    (∀ m, (stopped m).stopN = m.stopN)

-- load command ports (06_load_command_ports.md)

/-- STATUS and READ (R203, R205 to R212, R216, R218): a frame whose 40 bits an idle port samples, its response, the
outcome record, what a delivered STATUS marks as reported, the expected generation that a READ sets, the rejections, a
bad CRC, a command that is unassigned, samples without a START, and a port that is not enabled. A fence and a block
reset leave both served. SET_V, ADJ_V, ON and OFF (R211, R213 to R216, R220, R221): an accepted request is one
transition of the slot's rail from the load port, answered ACCEPT with GEN and state or PENDING; a rejected one changes
no rail, is answered REJECT with its code, and is a NACK in the second stage where the first was not delivered. What
rests on log entries 22, 23, 24, 31 and 61 is this model's choice or inference. -/
def Obligations.LcpInspectionsAndTransitions : Prop :=
  (∀ (s : State) (p slot : Fin 4) (tag : BitVec 2) (value : Word) (q : LcpReq),
    let a := 0x1800 + 0x10 * p.val
    let k := 4 * p.val + slot.val
    let x := s.slot k
    let n := field (s.reg (a + 2)) (4 * slot + 3) (4 * slot)
    let opened := bit (s.reg (a + 1)) 0 = true
    let idle := opened ∧ (s.port p).active = false ∧ (s.port p).hist = 0xFF
    let enabled := bit (s.reg (a + 3)) slot = true
    let body (cmd : Nat) : Nat := 0x5A * 2 ^ 24 + slot.val * 2 ^ 22 + cmd * 2 ^ 18 + tag.toNat * 2 ^ 16 + value.toNat
    let sent (cmd : Nat) (crc : Byte) : Prop := q.samples = bitsOf 40 (body cmd * 256 + crc.toNat)
    let good (cmd : Nat) : Prop := sent cmd (crc8 32 (body cmd))
    let frame (resp : Nat) (data : Word) : BitVec 32 :=
      let hi := 8388608 + resp * 1048576 + tag.toNat * 262144 + slot.val * 65536 + data.toNat
      BitVec.ofNat 32 (hi * 256 + (crc8 24 hi).toNat)
    let answer (run resp : Nat) (data : Word) : State :=
      s.setPort p { crcRun := run, active := false, hist := 0xFF, part := [], resp := frame resp data, drives := true }
    let event (m : State) (b : Word) : State := m.setReg (a + 0xD) (s.reg (a + 0xD) ||| b)
    let record := if x.unrep then x.record else match x.changed with
      | some w => w
      | none => if field x.record 15 14 = 0 then (s.unit n).gen.setWidth 16 else x.record
    let reported : LcpSlot := if x.unrep
      then (if x.queue = [] then { x with unrep := false }
        else { x with record := x.queue.headD 0, queue := x.queue.tail })
      else match x.changed with
        | some w => { x with record := w, changed := none }
        | none => x
    let cnt := s.reg (a + 0xC)
    let counted := wd (min 255 (field cnt 7 0 + 1) + 256 * field cnt 15 8)
    let top := field (s.reg (a + 1)) 7 4
    let run := (s.port p).crcRun + 1
    (idle → good 0 → enabled → value = 0 → Leaves (.status p q) s
      (if q.delivered then (answer 0 4 record).setSlot k reported else answer 0 4 record)) ∧
    (idle → good 0 → ¬enabled ∨ value ≠ 0 → Leaves (.status p q) s (event (answer 0 2 0x0101) 4)) ∧
    (idle → good 1 → enabled → value = 0 → Leaves (.read p q) s (answer 0 4 (s.reg (0x1002 + 0x40 * n)))) ∧
    (idle → good 1 → enabled → value = 1 →
      Leaves (.read p q) s ((answer 0 4 (s.unit n).word).setReg (a + 4 + slot) ((s.unit n).gen.setWidth 16))) ∧
    (idle → good 1 → ¬enabled ∨ 1 < value.toNat → Leaves (.read p q) s (event (answer 0 2 0x0101) 4)) ∧
    (∀ i ∈ [Instr.status p q, .read p q, .setV p q, .adjV p q, .on p q, .off p q],
      (¬opened → Leaves i s s) ∧
      (∀ cmd crc, cmd < 16 → idle → sent cmd crc → crc ≠ crc8 32 (body cmd) →
        (top = 0 ∨ run < top → Leaves i s (event ((answer run 5 0).setReg (a + 0xC) counted) 8)) ∧
        (top ≠ 0 → top ≤ run →
          Leaves i s ((event ((answer 0 5 0).setReg (a + 0xC) counted) 8).occur 6 (3 * p) 0))) ∧
      (∀ cmd, 6 ≤ cmd → cmd < 16 → idle → good cmd → Leaves i s (event (answer 0 2 0x0104) 4)) ∧
      (idle → (∀ b ∈ q.samples, b = true) → Leaves i s (s.setPort p { s.port p with drives := false })))) ∧
  (∀ (s : State) (p slot : Fin 4) (tag : BitVec 2) (value : Word) (q : LcpReq),
    let a := 0x1800 + 0x10 * p.val
    let k := 4 * p.val + slot.val
    let n := field (s.reg (a + 2)) (4 * slot + 3) (4 * slot)
    let idle := bit (s.reg (a + 1)) 0 = true ∧ (s.port p).active = false ∧ (s.port p).hist = 0xFF
    let owns := ownerIs (s.unit n) .port p
    let expected : Byte := (s.reg (a + 4 + slot)).setWidth 8
    let sum : Int := ((s.reg (0x1002 + 0x40 * n)).toNat : Int) + value.toInt
    let asked (cmd : Nat) (i : Instr) (bad : Bool) (rq : RailReq) : Prop :=
      let c := firstFail [(!bit (s.reg (a + 3)) slot || bad, 0x0101), ((s.unit (0x3C + p)).fenced, 0x0401),
        (true, railCode s n owns (some expected) rq)]
      let body := 0x5A * 2 ^ 24 + slot.val * 2 ^ 22 + cmd * 2 ^ 18 + tag.toNat * 2 ^ 16 + value.toNat
      let frame (resp : Nat) (data : Word) : BitVec 32 :=
        let hi := 8388608 + resp * 1048576 + tag.toNat * 262144 + slot.val * 65536 + data.toNat
        BitVec.ofNat 32 (hi * 256 + (crc8 24 hi).toNat)
      let answer (m : State) (resp : Nat) (data : Word) : State :=
        m.setPort p { crcRun := 0, active := false, hist := 0xFF, part := [], resp := frame resp data, drives := true }
      let m := railDo s n 1 (some (k, tag)) (fun _ => false) rq
      let refused : State := if q.inTime
        then (answer s 2 c).setReg (a + 0xD) (s.reg (a + 0xD) ||| 4) else answer s 3 0
      idle → q.samples = bitsOf 40 (body * 256 + (crc8 32 body).toNat) →
        (c = 0 → Leaves i s (if q.inTime
          then answer m 1 (wd ((m.unit n).code.toNat + 256 * (m.unit n).gen.toNat)) else answer m 3 0)) ∧
        (c ≠ 0 → Leaves i s (if q.inTime && q.delivered then refused
          else refused.outcome k 2 tag (reasonOf c) (s.unit n).gen))
    asked 2 (.setV p q) (!vsetOk n value) (.setv value) ∧
    asked 3 (.adjV p q) (decide (sum < 3000 ∨ 55000 < sum)) (.setv (BitVec.ofInt 16 sum)) ∧
    asked 4 (.on p q) (value != 0) .on ∧
    asked 5 (.off p q) (value != 0) .off)

/-- What an accepted request does to a rail or an LDO in the ordinary cases, from whatever path (R118 to R122, R132,
R155 to R157, R213, R215, R217, R277): one transition, GEN by one, the state code, BUSY and CFG.ON or VSET; and which
requests it refuses. The slot of a load command port maps a switching rail alone. What rests on log entries 22, 23, 24
and 70 is this model's choice or inference. -/
def Obligations.RailRequests : Prop :=
  ∀ (s : State) (k : Fin 16) (src : BitVec 4) (slot : Option (Nat × BitVec 2)) (v : Word),
    let u := s.unit k
    let x := s.rail k
    let a := 0x1000 + 0x40 * k.val
    let t (q : RailReq) : State := railDo s k src slot (fun _ => false) q
    let unit (q : RailReq) (c : BitVec 4) (b : Bool) : Prop :=
      (t q).unit k = { u with code := c, busy := b, gen := u.gen + 1, src := src }
    let code (owns : Bool) (gen : Option Byte) (q : RailReq) : Word := railCode s k owns gen q
    (u.code = 0 → waitsForSource s (fun _ => false) k = false → (∀ n, n < 16 → (s.unit n).code ≠ 1) →
      unit .on 2 true ∧ bit ((t .on).reg (a + 1)) 0 = true ∧ ((t .on).rail k).checked = false ∧
        ((t .on).rail k).disch = false) ∧
    (u.code = 0 → waitsForSource s (fun _ => false) k = true → unit .on 1 true ∧ bit ((t .on).reg (a + 1)) 0 = true) ∧
    (u.code = 4 → x.hushed = false → unit .off 6 true ∧ bit ((t .off).reg (a + 1)) 0 = false ∧
      ((t .off).rail k).pg = false) ∧
    (u.code = 4 → x.hushed = true → unit .off 4 true ∧ ((t .off).rail k).after = some 6) ∧
    (u.code = 1 → unit .off 0 false ∧ bit ((t .off).reg (a + 1)) 0 = false) ∧
    (u.code = 0 → (t (.setv v)).unit k = { u with gen := u.gen + 1, src := src } ∧ (t (.setv v)).reg (a + 2) = v) ∧
    (u.code = 4 → x.hushed = false → unit (.setv v) 5 true ∧ (t (.setv v)).reg (a + 2) = v ∧
      ((t (.setv v)).rail k).oldV = s.reg (a + 2)) ∧
    (∀ q n, n < 0x100 → n ≠ k.val → (s.unit n).code ≠ 1 → (t q).unit n = s.unit n) ∧
    (∀ j tag, slot = some (j, tag) → u.code = 4 → j < 16 → ((t (.setv v)).slot j).inflight = (s.slot j).inflight ++ [(tag, k.val)]) ∧
    (v.toNat < 3000 ∨ 55000 < v.toNat → ∀ o g, code o g (.setv v) = 0x0101) ∧
    (∀ q o g, 3000 ≤ v.toNat → v.toNat ≤ 55000 → q = .on ∨ q = .off ∨ q = .setv v →
      let free := u.busy = false ∨ (q = .off ∧ u.code = 1)
      -- GANGED: no request is allowed, and the first check that fails gives its code (R38, R132)
      (u.code = 7 → code o g q = if o = false then 0x0204 else if g ≠ none ∧ g ≠ some u.gen then 0x0202
        else if u.busy = true then 0x0302 else 0x0201) ∧
      (u.code ≠ 7 → o = false → code o g q = 0x0204) ∧
      (u.code ≠ 7 → o = true → (∀ w, g = some w → w = u.gen) → ¬free → code o g q = 0x0302) ∧
      (u.code ≠ 7 → o = true → (∀ w, g = some w → w = u.gen) → free →
        (q = .on → (code o g q = 0 ↔ u.code = 0 ∧ switchOnBlocked s = false)) ∧
        (q = .off → (code o g q = 0 ↔ u.code = 4 ∨ u.code = 1)) ∧
        (q = .setv v → (code o g q = 0 ↔ u.code = 0 ∨ u.code = 4)) ∧
        (code o g q = 0 ∨ code o g q = 0x0201)) ∧
      (u.code ≠ 7 → o = true → ∀ w, g = some w → w ≠ u.gen → code o g q = 0x0202)) ∧
    -- an LDO (R155 to R157, R159)
    (∀ n : Fin 8,
      let j := 0x10 + n.val
      let b := 0x1400 + 0x20 * n.val
      let u := s.unit j
      let y := s.ldo n
      let l (q : RailReq) : State := railDo s j src slot (fun _ => false) q
      let lcode (owns : Bool) (gen : Option Byte) (q : RailReq) : Word := railCode s j owns gen q
      let stops : State := (s.setUnit j { u with code := 6, busy := true, gen := u.gen + 1, src := src }).setReg (b + 1)
        (s.reg (b + 1) &&& 0xFFFE)
      l .on = ((s.setUnit j { u with code := 2, busy := true, gen := u.gen + 1, src := src }).setReg (b + 1)
        (s.reg (b + 1) ||| 1)).setLdo n { y with disch := false } ∧
      l .off = State.setLdo (if y.pg then stops.setReg (b + 5) (s.reg (b + 5) ||| 2) else stops) n { y with pg := false } ∧
      l (.setv v) = (s.setReg (b + 2) v).setUnit j { u with gen := u.gen + 1, src := src } ∧
      (v.toNat < 5000 ∨ 50000 < v.toNat → ∀ o g, lcode o g (.setv v) = 0x0101) ∧
      (∀ q o g, 5000 ≤ v.toNat → v.toNat ≤ 50000 → q = .on ∨ q = .off ∨ q = .setv v →
        let may := (q = .on ∧ u.code = 0 ∧ switchOnBlocked s = false) ∨ (q = .off ∧ u.code = 4) ∨ (q = .setv v ∧ u.code = 0)
        lcode o g q = if o = false then 0x0204 else if g ≠ none ∧ g ≠ some u.gen then 0x0202
          else if u.busy = true then 0x0302 else if may then 0 else 0x0201))

/-- FRAME_TO and CONTENTION (R204, R206, R214, R226 to R228): the transaction ends and the port detects the fault, the
second where two samples in a row differ from what it drives; what a rail's ended transition and another's change leave
for the slots (R39, R215 to R218). What rests on log entry 61 is this model's choice or inference. -/
def Obligations.LcpCutsAndOutcomes : Prop :=
  (∀ (s : State) (p : Fin 4),
    let a := 0x1800 + 0x10 * p.val
    let opened := bit (s.reg (a + 1)) 0 = true
    let cnt := s.reg (a + 0xC)
    let idle := s.setPort p { s.port p with active := false, hist := 0xFF, part := [], drives := false }
    (opened → Leaves (.frameTo p) s (((idle.setReg (a + 0xC)
      (wd (field cnt 7 0 + 256 * min 255 (field cnt 15 8 + 1)))).setReg (a + 0xD) (s.reg (a + 0xD) ||| 0x10)).occur 6
      (3 * p + 1) 0)) ∧
    (¬opened → Leaves (.frameTo p) s s)) ∧
  -- what an enabled port drives after a request: two cycles of nothing, the wait, the response and the stop (R206, R214)
  (∀ (s : State) (x : LcpAnswered),
    let p := x.port.val
    let a := 0x1800 + 0x10 * p
    let y := s.port p
    let top := (s.reg (a + 1)).toNat / 256
    let waits := if y.resp.toNat / 2 ^ 28 % 8 = 3 then top else min (max 5 x.wait) top
    let drives : List (Option Bool) := if bit (s.reg (a + 1)) 0 = true ∧ y.drives = true
      then [none, none] ++ List.replicate waits (some false) ++ (bitsOf 32 y.resp.toNat).map some ++ [some true] else []
    let wrong (i : Nat) : Bool := match drives.getD i none, x.samples[i]? with
      | some d, some y => d != y
      | _, _ => false
    let clash := ∃ i ∈ List.range x.samples.length, wrong i = true ∧ wrong (i + 1) = true
    (clash → Leaves (.contention x) s (((s.setPort p { y with active := false, hist := 0xFF, part := [], drives := false }).setReg
      (a + 0xD) (s.reg (a + 0xD) ||| 0x20)).occur 6 (3 * p + 2) 0)) ∧
    (¬clash → Leaves (.contention x) s s)) ∧
  (∀ (s : State) (n k : Nat), n < 16 → k < 16 →
    let x := s.slot k
    let gen := (s.unit n).gen
    let mapped := slotEnabled s k = true ∧ slotRail s k = n
    let mine (j : Nat) : List (BitVec 2 × Nat) := (s.slot j).inflight.filter fun y => y.2 = n
    let nacks := (mine k).map fun y => outcomeWord 2 y.1 6 gen
    let port := ∃ j, j < 16 ∧ j / 4 = k / 4 ∧ mine j ≠ []
    let p := s.preempted n fun _ => false
    let c := s.changed n fun _ => false
    (mine k ≠ [] → p.slot k = { x with
      inflight := x.inflight.filter fun y => y.2 ≠ n
      record := if x.unrep then x.record else nacks.headD 0
      unrep := true
      queue := x.queue ++ if x.unrep then nacks else nacks.tail }) ∧
    (mapped → ¬port → ∃ tag, p.slot k = { x with changed := some (outcomeWord 3 tag 0 gen) }) ∧
    (mine k = [] → port ∨ ¬mapped → p.slot k = x) ∧
    (mapped → ∃ tag, c.slot k = { x with changed := some (outcomeWord 3 tag 0 gen) }) ∧
    (¬mapped → c.slot k = x) ∧
    (∀ u, p.unit u = s.unit u ∧ c.unit u = s.unit u))

-- start-up and resets (02_balls_and_supplies.md; 03_start_up_and_grist.md)

/-- The phases of the start (R61, R79, R80, R84, R85, R86, R88, R257, R296): each is entered from the one before it
alone; OTP sensing takes the OR of the two copies and counts the differences; the RESET entry is the first of the start,
and the entries of cold stops that waited for it follow. POR_RELEASE judges VDD_AON and VDD_CORE, and finds VSYS,
VBAT_RTC and the junction temperature as they are, with their conditions (R232, R664; within a threshold's tolerance
either way, log entries 21 and 76). The status poll ends, with or without an answer, and the loader reads from the start
of its slot (R87, R90, R531 to R534, R541): with READMODE[3] the discovery reads the JESD216 tables, chooses the widest
mode within the lines of READMODE[1:0], or reports that it failed. The places of JESD216's fields are the model's (log
entry 74), as are the order of quad, dual and single, the length of 256 bytes of the loader's reads and the commands
kept (log entry 63), and a count of dummy cycles that does not fit is a free value (log entry 5). No proof runs then;
one would hold the port. What rests on log entries 5, 21, 63, 74 and 76 is this model's choice or inference. -/
def Obligations.StartUp : Prop :=
  (∀ (s : State) (tm : Bool) (straps : Byte) (aon core vsys vbat : Nat),
    let phase (p : Phase) : State := { s with boot := { s.boot with phase := p } }
    let copies (w : Nat) : Word × Word := normalPair s w w
    let diff := ((List.range 256).filter fun w => (copies w).1 != (copies w).2).length
    let logged := s.boot.stopDue.foldl (fun m w => logPut m 0x02 false [w]) (logPut s 0x05 false [s.reg 0x002E])
    let poll (op : Byte) (rd : Nat) : SphCmd :=
      { op := op, div := field (s.reg 0x5001) 5 0, addr := none, addrBytes := 0, dummy := 0, lines := 1, rd := rd, wr := [] }
    let powered := 1710 ≤ aon ∧ 600 ≤ core ∧ core ≤ 900
    -- within a threshold's tolerance the judgement is free
    let free (n : Nat) : Prop := Config.freeTrip (s.fresh + n) = true
    let c := s.supply.dieC
    let low := decide (vsys < 4350 ∨ (vsys < 4500 ∧ ¬free 0))
    let high := decide (30500 ≤ vsys ∨ (28500 ≤ vsys ∧ free 1))
    let vbatOk := decide (1550 ≤ vbat ∨ (1450 ≤ vbat ∧ free 2))
    let hot := 130 ≤ c ∨ (120 ≤ c ∧ free 3)
    let supplied : State := { phase .oscillator with
      fresh := s.fresh + 4
      supply := { s.supply with vsysOk := !low && !high, aonOk := decide (aon ≤ 1890), coreOk := true, vbatOk := vbatOk } }
    let found := follows (follows (follows (follows (follows supplied 0 0 low) 0 1 high) 0 3 (decide (1890 < aon))) 0 7 (!vbatOk))
      2 0 (decide ((s.reg 0x0805).toNat ≤ c))
    (s.boot.phase = .supply → powered →
      (¬hot ∨ s.present 2 1 = true → Leaves (.porRelease aon core vsys vbat) s found) ∧
      (hot → s.present 2 1 = false → Leaves (.porRelease aon core vsys vbat) s (shutsDown (readsDie found c)))) ∧
    (s.boot.phase ≠ .supply ∨ ¬powered → Leaves (.porRelease aon core vsys vbat) s s) ∧
    (s.boot.phase = .oscillator → Leaves (.oscillatorCountEnd tm) s
      { s with boot := { s.boot with phase := .otpSensing, reset := none, testmode := tm } }) ∧
    (s.boot.phase ≠ .oscillator → Leaves (.oscillatorCountEnd tm) s s) ∧
    (s.boot.phase = .otpSensing → s.boot.reset = none → ∃ t, Leaves (.otpSensingEnd straps) s t ∧
      t.boot = { s.boot with phase := .retention } ∧
      (∀ w, w < 256 → mget dZero t.otp.sensed w = (copies w).1 ||| (copies w).2) ∧ t.otp.shown = t.otp.sensed ∧
      t.reg 0x002C = wd diff ∧
      (∀ u, t.unit u = if u = 0x56 ∨ u = 0x57 ∨ u = 0x58 ∨ u = 0x5A then { s.unit u with code := 1 } else s.unit u) ∧
      t.occs.map (fun o => (o.cls, o.src)) = s.occs.map (fun o => (o.cls, o.src)) ++
        (if diff = 0 then [] else [(8, 5)]) ++ (if s.supply.revLatch then [(0, 2)] else []) ∧
      t.supply = { s.supply with revLatch := false } ∧
      (let fix := (mget dZero t.otp.sensed 0x68).toNat / 256
       t.reg 0x0041 = wd (straps.toNat + 256 * fix) ∧
       t.reg 0x0040 = wd (((mget dZero t.otp.sensed 0x68).toNat % 256 &&& fix) ||| (straps.toNat &&& (255 - fix)))) ∧
      t = { s with fresh := t.fresh, otp := t.otp, regs := t.regs, units := t.units, sphMode := t.sphMode,
                   sphAddr4 := false, sphUse := t.sphUse, occs := t.occs, supply := t.supply, boot := t.boot, clock := t.clock
                   i2ca := t.i2ca } ∧
      t.sphMode = t.reg 0x5002 ∧ t.sphUse = t.sphMode ∧
      t.clock = { s.clock with porSeed := s.clock.porSeed || s.boot.fromPor }) ∧
    (s.boot.phase ≠ .otpSensing ∨ s.boot.reset ≠ none → Leaves (.otpSensingEnd straps) s s) ∧
    (s.boot.phase = .retention → s.boot.testmode = true →
      Leaves .retentionCheckEnd s { logged with boot := { s.boot with phase := .testHold, stopDue := [] } }) ∧
    (s.boot.phase = .retention → s.boot.testmode = false → Leaves .retentionCheckEnd s
      ({ logged with boot := { s.boot with
        phase := .load, polled := false, crc := 0xFFFFFFFF, bytes := 0, index := 0, stopDue := []
        cmds := [poll 0x66 0, poll 0x99 0, poll 0x05 1] } }.setReg 0x0020 ((s.reg 0x0021 &&& 1) <<< 6))) ∧
    (s.boot.phase ≠ .retention → Leaves .retentionCheckEnd s s)) ∧
  (∀ (s : State) (d : Sfdp), s.boot.phase = .load → s.boot.polled = false →
    let polled : State := { s with boot := { s.boot with polled := true } }
    let or_ (m : State) (a : Nat) (b : Word) : State := m.setReg a (m.reg a ||| b)
    let silent := (or_ (or_ polled 0x5000 1) 0x5008 1).occur 6 0x15 0
    let rm := field (s.reg 0x002B) 11 8
    let lines := rm % 4
    let bytes (l : List Nat) : List Nat := l.map fun i => (d.header.getD i 0).toNat
    let bits (n hi lo : Nat) : Nat := (d.table.getD (n - 1) 0).toNat / 2 ^ lo % 2 ^ (hi + 1 - lo)
    let good := bytes [0, 1, 2, 3] = [0x53, 0x46, 0x44, 0x50] ∧ bytes [10] = [1]
    let addr4 := bits 1 18 17 = 2
    let fast (op wait clocks n : Nat) : Word := wd (op + 4096 * n +
      256 * if wait + clocks < 16 then wait + clocks else (Config.freeDummy s.fresh).toNat)
    let mode : Word :=
      if lines = 3 ∧ bits 1 22 22 = 1 then fast (bits 3 31 24) (bits 3 20 16) (bits 3 23 21) 2
      else if 2 ≤ lines ∧ bits 1 16 16 = 1 then fast (bits 4 15 8) (bits 4 4 0) (bits 4 7 5) 1
      else 0x080B
    let chosen := if addr4 then mode ||| 0x4000 else mode
    let asks (m : State) : State := { m with boot := { m.boot with cmds := m.boot.cmds ++
      [{ op := 0x5A, div := 4, addr := some 0, addrBytes := 3, dummy := 8, lines := 1, rd := 16, wr := [] },
       { op := 0x5A, div := 4, addr := some ((bytes [12, 13, 14]).foldr (fun b a => b + 256 * a) 0), addrBytes := 3, dummy := 8
         lines := 1, rd := 4 * d.table.length, wr := [] }] ++
      (if good ∧ addr4 then [{ op := 0xB7, div := field (s.reg 0x5001) 5 0, addr := none, addrBytes := 0, dummy := 0, lines := 1
                               rd := 0, wr := [] }] else []) } }
    let found (m : State) : State :=
      { (or_ (asks m) 0x5000 2).setReg 0x5002 chosen with sphMode := chosen, sphAddr4 := decide addr4, fresh := s.fresh + 1 }
    let failed (m : State) : State := or_ (or_ (asks m) 0x5000 4) 0x5008 4
    let at_ := (field (s.reg 0x002B) 7 0 + field (s.reg 0x0020) 6 6) * 65536
    let reads (m : State) : State :=
      let w := rdMode m
      { m with sphUse := w, boot := { m.boot with cmds := m.boot.cmds ++
        [{ op := w.setWidth 8, div := field (s.reg 0x5001) 5 0, addr := some (memAddr m at_)
           addrBytes := if bit w 14 then 4 else 3, dummy := field w 11 8, lines := 2 ^ field w 13 12, rd := 256, wr := [] }] } }
    (proofRun s = 2 → Leaves (.statusPollDone d) s s ∧ Leaves (.sphNoresp d) s s) ∧
    (proofRun s ≠ 2 →
      (rm < 8 → Leaves (.statusPollDone d) s (reads polled) ∧ Leaves (.sphNoresp d) s (reads silent)) ∧
      (8 ≤ rm → good → Leaves (.statusPollDone d) s (reads (found polled)) ∧ Leaves (.sphNoresp d) s (reads (found silent))) ∧
      (8 ≤ rm → ¬good → Leaves (.statusPollDone d) s (reads (failed polled)) ∧ Leaves (.sphNoresp d) s (reads (failed silent)))))

/-- Chip resets by RESET_N and by GLB_RESET (R62, R81, R83): what is left, and when each releases; no other cause
releases a reset that RESET_N holds. In the supply and oscillator phases RESET_N has no effect by the model's choice
(log entry 29). Power-on reset (R25, R259, R274, R279, R296, R591, R613): every unit OFF with GEN 0, device time 0, the
log and the ledger empty, OTP and the record store kept, and the RTC kept, locked and switched over (RTC_EVT.SWOVER,
R609), while VBAT_RTC holds. It takes force where VDD_AON has fallen to its threshold, anywhere in its tolerance as the
report says (log entry 76); that VBAT_RTC below its threshold may still hold the RTC is a free value (log entry 5). What
rests on log entries 28, 29, 50, 58, 63 and 76 is this model's choice or inference. -/
def Obligations.Resets : Prop :=
  (∀ (s : State) (r : Req) (tm : Bool), Canonical s →
    let released : State := { s with boot := { s.boot with phase := .otpSensing, reset := none, testmode := tm } }
    (s.boot.phase ≠ .supply → s.boot.phase ≠ .oscillator → s.boot.reset = none →
      ∃ t, Leaves .resetNLow s t ∧ ChipReset s t .pin 2) ∧
    (s.boot.phase = .supply ∨ s.boot.phase = .oscillator → Leaves .resetNLow s s) ∧
    (s.boot.phase ≠ .supply → s.boot.phase ≠ .oscillator → s.boot.reset ≠ none → Leaves .resetNLow s
      ({ s with boot := { s.boot with reset := some .pin } }.setReg 0x002E (s.reg 0x002E ||| 2))) ∧
    (mayAccess s r = true → reqFenced s r = false → r ≠ .loader →
      ∃ t, Leaves (.glbReset r) s t ∧ ChipReset s t .soft 4) ∧
    (s.boot.reset = some .pin → Leaves (.resetNRise tm) s released ∧ Leaves (.chipResetRelease tm) s s) ∧
    (s.boot.reset = some .soft ∨ s.boot.reset = some .fault →
      Leaves (.chipResetRelease tm) s released ∧ Leaves (.resetNRise tm) s s) ∧
    (s.boot.reset = none → Leaves (.resetNRise tm) s s ∧ Leaves (.chipResetRelease tm) s s)) ∧
  (∀ (s : State) (aon : Nat), s.otp.kiln = none → s.recsDue = [] →
    (1600 < aon → Leaves (.powerOnReset aon) s s) ∧
    (aon ≤ 1600 → ∃ t, Leaves (.powerOnReset aon) s t ∧
    (∀ n, t.unit n = {}) ∧ (∀ n, t.eng n = {}) ∧ (∀ r, t.req r = {}) ∧ t.boot = {} ∧ t.clock = {} ∧ t.commitNo = 0 ∧
    t.ledger = [] ∧ t.log = [] ∧ t.logSeq = 0 ∧ t.logLost = 0 ∧ t.draught = [] ∧ t.seqTab = [] ∧ t.unack = 0 ∧
    t.sram = [] ∧ t.store = s.store ∧ t.storeSeq = s.storeSeq ∧ t.pending = s.pending ∧
    t.otp = { s.otp with sensed := [], shown := [] } ∧
    (∀ a, a ≠ 0x0860 → a ≠ 0x0862 → ¬(0x5900 ≤ a ∧ a < 0x5A00) → t.reg a = resetValue a) ∧
    t.reg 0x0860 = s.reg 0x0860 ∧ t.reg 0x0862 = s.reg 0x0862 ∧
    t.supply.dieC = s.supply.dieC ∧ t.supply.vbatOk = s.supply.vbatOk ∧
    ((t.rtc = { s.rtc with lock := true, onbat := true } ∧
        (∀ a, 0x5900 ≤ a → a < 0x5A00 → a ≠ 0x5924 → t.reg a = s.reg a) ∧
        t.reg 0x5924 = (if s.rtc.onbat then s.reg 0x5924 else s.reg 0x5924 ||| 8) ∧
        t.supply.revLatch = s.supply.revLatch) ∨
      (s.supply.vbatOk = false ∧ t.rtc = {} ∧ (∀ a, 0x5900 ≤ a → a < 0x5A00 → t.reg a = resetValue a) ∧
        t.supply.revLatch = false))))

-- the grist loader (03_start_up_and_grist.md)

/-- Records that the loader acts on (R95, R98, R100 to R102, R105 to R107, R275): the words written in order, MASK from
the staged word or what a read returns, FILL, COMMIT, TAG; what the loader may not write; the counts, the digest and the
bytes, and the reads of 256 bytes that bring them. The length of a read, MASK's old value and a failed COMMIT's count
are the model's (log entry 63), and so are addresses that run past 0xFFFF (log entry 30). Records skipped by LEN, and
the stops of the load (R96, R97, R99, R103, R105, R107, R109, R110): what stops it, the abort of the loader's draught,
GLB_LOAD_ST, the LOAD entry of the log, and READY or the power-on table. A read that the next record needs waits while a
direct transfer holds the port (R542), and with it the record. What rests on log entries 30 and 63 is this model's
choice or inference. -/
def Obligations.LoadRecords : Prop :=
  (∀ (s : State) (a m v g : Word) (d : List Word), s.boot.phase = .load → s.boot.polled = true →
    (s.unit 0x56).fenced = false → proofRun s ≠ 2 → bit (s.reg 0x5000) 3 = false →
    let used (typ : Nat) (ws : List Word) : State :=
      let all := wd (4096 * typ + ws.length) :: ws
      let n := s.boot.bytes + 2 * all.length
      let crc := crc32 s.boot.crc (wordBytes all)
      let reads := (List.range 256).filter fun k => 1 ≤ k ∧ s.boot.bytes ≤ 256 * k ∧ 256 * k < n
      ({ s with sphUse := if reads = [] then s.sphUse else rdMode s, boot := { s.boot with
          crc := crc, bytes := n, cmds := s.boot.cmds ++ reads.map fun k => readCmd s (imageBase s + 256 * k) 256 } }.setPair 0x0027 (BitVec.ofNat 32 n)).setPair 0x0029
        (crc ^^^ 0xFFFFFFFF)
    let counted (t : State) : State :=
      { t.setReg 0x0022 (t.reg 0x0022 + 1) with boot := { t.boot with index := t.boot.index + 1 } }
    let fits (ws : List Word) := s.boot.bytes + 2 + 2 * ws.length ≤ 65536
    let put (t : State) (b : Nat) (w : Word) : State := loaderWrite t b w
    let old := match s.staged a.toNat with
      | some e => e.word
      | none => view (used 2 [a, m, v]) .loader a.toNat
    let c := opCommit (used 4 [g]) .loader g
    (1 ≤ d.length → d.length ≤ 4094 → fits (a :: d) → Leaves (.write (a :: d)) s
      (counted (d.zipIdx.foldl (fun t p => put t (a.toNat + p.2) p.1) (used 1 (a :: d))))) ∧
    (fits [a, m, v] → Leaves (.mask a m v) s
      (counted (put (used 2 [a, m, v]) a.toNat ((old &&& ~~~m) ||| (v &&& m))))) ∧
    (fits [a, m, v] → Leaves (.fill a m v) s
      (counted ((List.range m.toNat).foldl (fun t i => put t (a.toNat + i) v) (used 3 [a, m, v])))) ∧
    (fits [g] → Leaves (.gristCommit g) s (counted (rejected c.1 c.2.1))) ∧
    (1 ≤ d.length → d.length ≤ 8 → fits d → ∃ t, Leaves (.tag d) s t ∧ t = { counted (used 5 d) with regs := t.regs } ∧
      (∀ i, i < 8 → t.reg (0x0030 + i) = d.getD i 0) ∧
      (∀ b, b < 0x0030 ∨ 0x0038 ≤ b → t.reg b = (counted (used 5 d)).reg b)) ∧
    (∀ (t : State) (b : Nat) (w : Word),
      let b' := b % 65536
      let e := writeCode t .loader b' w
      let z := put t b w
      (e = 0 → z = applyWrite t .loader b' w) ∧
      (e ≠ 0 → z.reg 0x0024 = wd (satInc (t.reg 0x0024).toNat 0xFFFF) ∧
        (t.reg 0x0024 = 0 → z.reg 0x0025 = wd t.boot.index ∧ z.reg 0x0026 = e) ∧
        (t.reg 0x0024 ≠ 0 → z.reg 0x0025 = t.reg 0x0025 ∧ z.reg 0x0026 = t.reg 0x0026) ∧
        z = { t with regs := z.regs, reqs := z.reqs })) ∧
    (∀ (t : State) (b : Nat) (w : Word), b = 0x0002 ∨ (0x0020 ≤ b ∧ b ≤ 0x003F ∧ b ≠ 0x002D) ∨ (0x7000 ≤ b ∧ b < 0x8000) →
      let i := regInfo b
      writeCode t .loader b w ≠ 0 ∧
      (bankPending t .loader = false → i.acc ≠ .unmapped → (i.acc = .reserved → w = 0) → w &&& ~~~i.mask = 0 →
        writeRange t .loader b w = true → writeCode t .loader b w = 0x0203))) ∧
  (∀ (s : State) (h : Word) (ws : List Word) (len : BitVec 12), s.boot.phase = .load → s.boot.polled = true →
    (s.unit 0x56).fenced = false → proofRun s ≠ 2 →
    let held := bit (s.reg 0x5000) 3 = true
    let used (all : List Word) : State := consume s all
    let typ := field h 15 12
    let n := field h 11 0
    let skipped := (typ = 1 ∧ n < 2) ∨ ((typ = 2 ∨ typ = 3) ∧ n ≠ 3) ∨ (typ = 4 ∧ n ≠ 1) ∨ (typ = 5 ∧ (n = 0 ∨ 8 < n)) ∨
      (6 ≤ typ ∧ h ≠ 0xFFFF)
    let room := s.boot.bytes + 2 ≤ 65536
    let slot := field (s.reg 0x0020) 6 6
    let stopped (t : State) (why : Nat) : State :=
      let es := t.draught.filter fun e => !e.loader
      let ab := t.draught.any fun e => e.loader
      let m := { t with draught := es
                        holders := t.holders.filter fun x => es.any fun e => holderOf e.addr = some x.holder }.setReg
        0x0020 (wd (8 * why + 32 + 64 * slot + if ab then 128 else 0))
      let l := logPut m 0x03 false [wd (slot + 2 * why), t.reg 0x0022, t.reg 0x0024, t.reg 0x0029, t.reg 0x002A,
        t.reg 0x0027, t.reg 0x0028]
      { l with boot := { t.boot with phase := .ready } }
    let on (t : State) : State := { t with seq := { st := 1 }, boot := { t.boot with phase := .running } }
    let auto := bit (s.reg 0x002D) 0
    (held → (∃ k ∈ List.range 256, 1 ≤ k ∧ s.boot.bytes ≤ 256 * k ∧ 256 * k < s.boot.bytes + 2) →
      Leaves (.term len) s s ∧ Leaves .erased s s) ∧
    (¬held → skipped → n = ws.length → room → s.boot.bytes + 2 + 2 * ws.length ≤ 65536 →
      Leaves (.skippedRecord h ws) s
        { (used (h :: ws)).setReg 0x0023 (s.reg 0x0023 + 1) with
          boot := { (used (h :: ws)).boot with index := s.boot.index + 1 } }) ∧
    (¬held → room → auto = false →
      Leaves (.term len) s (stopped (used [wd len.toNat]) 1) ∧ Leaves .erased s (stopped (readNext s 2) 2)) ∧
    (¬held → room → auto = true →
      Leaves (.term len) s (on (stopped (used [wd len.toNat]) 1)) ∧
      Leaves .erased s (on (stopped (readNext s 2) 2))) ∧
    let ended (t : State) : State := if bit (t.reg 0x002D) 0 then on (stopped t 3) else stopped t 3
    (s.boot.bytes = 65536 → Leaves (.window []) s (ended s)) ∧
    (∀ a d, ¬held → s.boot.bytes + 2 * (d.length + 2) = 65536 → ws = a :: d → typ = 1 → d.length + 1 < n →
      let t := d.zipIdx.foldl (fun t p => loaderWrite t (a.toNat + p.2) p.1) (used (h :: ws))
      field (t.reg 0x0020) 6 6 = slot → Leaves (.window (h :: ws)) s (ended t)) ∧
    (¬held → s.boot.bytes + 2 * (ws.length + 1) = 65536 → 2 ≤ typ → h ≠ 0xFFFF → ws.length < n →
      Leaves (.window (h :: ws)) s (ended (used (h :: ws)))))

-- the charger and the power path (14_charger_and_power_path.md)

/-- The ends of the charger's phases that a timer gives (R511, R512, R517, R518), and CHG_RESTART (R528): the next
phase, CHG_RCY.ENDED, the reason and the SAFETY_TIMER occurrence. One monitor reading (R507, R508, R511, R513, R514,
R516, R518, R527): the readings and BATP are shown at once, the current from the voltage on the sense resistor and the
temperature by the law of R507 (25 °C at the thermistor's R25; rounding is free), the charger's unit accepts no
transition, and the limits, the removed pack, the end of PRECHARGE, −ΔV, dT/dt, a loss of input and a suspension act on
it. What rests on log entry 66 is this model's choice or inference. -/
def Obligations.Charger : Prop :=
  (∀ (s : State),
    let u := s.unit 0x04D
    let c := u.code
    let g := s.chg
    let n := (s.reg 0x1A01).toNat / 2 % 16 + 1
    let vbat := (s.reg 0x1A18).toNat
    -- a phase change: no transition, CHG_EVT.PHASE; the maximum power point is sought anew; an entry to FAST starts its counts
    let enter (m : State) (k : BitVec 4) : State :=
      let h := m.chg
      let tracks := (s.reg 0x1A01).toNat / 256 % 4 == 1 && (k == 3 || k == 4 || k == 5)
      let h := { h with scan := tracks, pSum := 0, pN := 0, lastP := none, vmaxCheck := 0
                        ilimVin := (k == 3 || k == 4 || k == 5 || k == 6) && h.ilimVin }
      let n := m.setUnit 0x04D { m.unit 0x04D with code := k }
      { (if (m.unit 0x04D).code = k then n else n.setReg 0x1A20 (m.reg 0x1A20 ||| 1)) with
        chg := if k = 4 then
            { h with phaseT := 0, peakSet := false, dvRun := 0, fullRun := if (m.unit 0x04D).code = 8 then 0 else 600 }
          else h }
    let ended (r : BitVec 4) : State :=
      { (s.setReg 0x1A1F 1).setReg 0x1A20 (s.reg 0x1A20 ||| 2) with chg := { g with reason := r, inputGone := 0 } }
    let top : BitVec 4 := if s.reg 0x1A05 = 0 then 7 else 6
    let fresh (m : State) : State :=
      { (m.setReg 0x1A1F 0).setReg 0x1A1E 0 with chg := { m.chg with fastT := 0, inputGone := 0 } }
    (c = 2 → u.fenced = false → g.ingate = true → suspCause s false = 0 →
      Leaves .qualifyEnd s (enter s (if 1800 * n ≤ vbat then 4 else 3))) ∧
    (c ≠ 2 → Leaves .qualifyEnd s s) ∧
    (c = 3 → u.fenced = false → g.vmaxCheck = 0 →
      Leaves .prechargeTimeout s ((enter (ended 5) 0xF).occur 3 4 1)) ∧
    (c ≠ 3 → Leaves .prechargeTimeout s s) ∧
    (c = 4 → u.fenced = false → g.vmaxCheck = 0 →
      (10 * ((s.reg 0x1A08).toNat % 256) ≤ (s.reg 0x1A1E).toNat →
        Leaves .fastTimeout s ((enter (ended 4) 0xF).occur 3 4 0)) ∧
      ((s.reg 0x1A1E).toNat < 10 * ((s.reg 0x1A08).toNat % 256) → Leaves .fastTimeout s s)) ∧
    (c = 5 → u.fenced = false → g.vmaxCheck = 0 → Leaves .topoffEnd s (enter s top)) ∧
    (c = 8 → u.fenced = false → suspCause s (g.left == 2) = 0 → 2 ≤ g.left → g.left ≤ 6 →
      let m := enter { s with chg := { g with susp := 0 } } g.left
      Leaves .suspendEnd s (if g.ingate then m else enter m 1)) ∧
    (c = 8 → suspCause s (g.left == 2) ≠ 0 → Leaves .suspendEnd s s) ∧
    (g.batp = false → Leaves .batteryAbsentTimeout s (fresh s)) ∧
    (g.batp = true → Leaves .batteryAbsentTimeout s s) ∧
    (∀ r, commandable s r = true → bankArg s r 0 = u.gen.setWidth 16 → u.fenced = false → reqOwns r u = true →
      u.busy = false →
      let q := setBank s r 0 0x0801
      let bars := s.present 3 0 = true ∨ s.present 3 3 = true ∨ s.present 2 1 = true
      (c = 1 ∨ c = 7 ∨ c = 6 ∨ c = 0xF → ¬bars →
        -- WAITING, which a new cycle leaves at once where the input and a battery are present (R511, R512, R518)
        let w := enter (fresh (q.setUnit 0x04D { u with gen := u.gen + 1, src := r.src })) 1
        let cause := suspCause s true
        let y := enter w 2
        let z := enter { y with chg := { y.chg with susp := cause, left := 2 } } 8
        Leaves (.chgRestart r) s (finishCmd (if g.ingate = false ∨ g.batp = false then w else if cause = 0 then y
          else z.setReg 0x1A20 (z.reg 0x1A20 ||| 0x10)) r 0 [(w.unit 0x04D).word])) ∧
      (bars ∨ (c ≠ 1 ∧ c ≠ 7 ∧ c ≠ 6 ∧ c ≠ 0xF) → Leaves (.chgRestart r) s (finishCmd q r 0x0201 [])))) ∧
  (∀ (s : State) (vbat vin : Word) (vsns : Int) (ntc bias : Nat) (limited : Bool),
    let u := s.unit 0x04D
    let c := u.code
    let g := s.chg
    let cfg := (s.reg 0x1A01).toNat
    let n := cfg / 2 % 16 + 1
    let v := vbat.toNat
    let tmin : Int := ((s.reg 0x1A0A).setWidth 8).toInt * 16
    let tmax : Int := ((s.reg 0x1A0A).toNat / 256) * 16
    let batp := decide (200 * n ≤ v)
    let mid := g.vN < 9 ∧ g.tN < 99
    let after : BitVec 4 := if cfg.testBit 7 then 5 else if s.reg 0x1A05 = 0 then 7 else 6
    let held := ((s.reg 0x1A07).toNat % 256) * 600 ≤ g.phaseT + 1
    let ntcHigh := decide (95 * bias < 100 * ntc)
    let ohms : Int := (s.reg 0x1A0D).toNat % 1024
    -- CHG_VINREG, or the voltage of the maximum power point
    let reg := (s.reg (if cfg / 256 % 4 = 0 then 0x1A0B else 0x1A1D)).toNat
    u.fenced = false → ∃ t, Leaves (.monitorReading vbat vin vsns ntc bias limited) s t ∧
      let temp := t.reg 0x1A1A
      let calm := s.present 3 1 = false ∧ s.present 3 2 = false ∧ s.present 2 1 = false ∧ tmin ≤ temp.toInt
      let within := temp.toInt < tmax ∧ v ≤ 3600 * n
      t.reg 0x1A18 = vbat ∧ t.reg 0x1A1B = vin ∧ t.chg.batp = batp ∧
      (0 < ohms → -32767 * ohms ≤ 10 * vsns → 10 * vsns ≤ 32766 * ohms →
        ((t.reg 0x1A19).toInt * ohms - 10 * vsns).natAbs < ohms.natAbs) ∧
      (0 < ntc → bias = 2 * ntc → s.reg 0x1A0E ≠ 0 → temp = 400) ∧
      (∃ k, t.unit 0x04D = { u with code := k }) ∧ (∀ k, k ≠ 0x04D → t.unit k = s.unit k) ∧
      t = { s with regs := t.regs, chg := t.chg, units := t.units, fsrc := t.fsrc, occs := t.occs, fresh := t.fresh } ∧
      (∀ a, a < 0x1A18 ∨ 0x1A20 < a → t.reg a = s.reg a) ∧
      (∀ k, k ≠ 0x303 → t.flt k = s.flt k) ∧
      t.chg.ingate = g.ingate ∧ t.chg.pathOn = g.pathOn ∧ t.chg.vinOk = g.vinOk ∧ t.chg.buckHold = g.buckHold ∧
      -- R527
      (2 * (s.reg 0x1A10).toNat * n ≤ (s.reg 0x1A18).toNat → v < 2 * (s.reg 0x1A10).toNat * n → g.ingate = false →
        bit (t.reg 0x1A20) 5 = true) ∧
      -- R516
      (c = 3 ∨ c = 5 ∨ (c = 4 ∧ mid) → g.vmaxCheck = 0 → tmax ≤ temp.toInt →
        (t.unit 0x04D).code = 0xF ∧ t.chg.reason = 3 ∧ (c ≠ 5 → t.reg 0x1A1F = 1) ∧ t.present 3 3 = true ∧
        t.occs = if s.present 3 3 then s.occs else (s.occur 3 3 0).occs) ∧
      (c = 3 ∨ c = 5 ∨ (c = 4 ∧ mid) → g.vmaxCheck = 0 → temp.toInt < tmax → 3600 * n < v →
        (t.unit 0x04D).code = c ∧ t.chg.reason = 6 ∧ t.chg.vmaxCheck = 20) ∧
      (3 ≤ c → c ≤ 5 → 0 < g.vmaxCheck →
        (batp = false ∨ ntcHigh = true → (t.unit 0x04D).code = 1 ∧ t.chg.vmaxCheck = 0 ∧ t.occs = s.occs) ∧
        (batp = true → ntcHigh = false → g.vmaxCheck = 1 →
          (t.unit 0x04D).code = 0xF ∧ t.chg.reason = (if c = 5 then g.reason else 6) ∧ t.occs = (s.occur 3 7 0).occs) ∧
        (batp = true → ntcHigh = false → 1 < g.vmaxCheck →
          (t.unit 0x04D).code = c ∧ t.chg.vmaxCheck = g.vmaxCheck - 1)) ∧
      -- R511
      (c = 3 → g.vmaxCheck = 0 → within → 2000 * n ≤ v → g.ingate = true → calm →
        (t.unit 0x04D).code = 4 ∧ t.chg.phaseT = 0 ∧ t.chg.peakSet = false) ∧
      (c = 2 ∨ c = 6 ∨ ((c = 3 ∨ c = 5 ∨ (c = 4 ∧ mid)) ∧ within) → g.vmaxCheck = 0 → g.ingate = false →
        (t.unit 0x04D).code = 1) ∧
      -- R513, R515
      (c = 4 → g.vmaxCheck = 0 → reg ≤ vin.toNat → limited = false ∨ reg < vin.toNat → s.present 2 0 = false → g.scan = false → g.fullRun = 600 → g.vN = 9 →
        g.tN < 99 → cfg.testBit 5 = true → held → g.peakSet = true → 2 ≤ g.dvRun →
        g.vSum + v + 10 * ((s.reg 0x1A06).toNat % 32) * n ≤ g.peak → within → g.ingate = true → calm →
        (t.unit 0x04D).code = after ∧ t.chg.reason = 1 ∧ t.reg 0x1A1F = 1 ∧ bit (t.reg 0x1A20) 1 = true) ∧
      -- R514
      (∀ l x, c = 4 → g.vmaxCheck = 0 → g.vN < 9 → g.tN = 99 → g.tb10 = l → 6 ≤ l.length → l[5]? = some x →
        cfg.testBit 6 = true → held → 400 * (((s.reg 0x1A06).toNat / 256 % 16 : Nat) : Int) ≤ g.tSum + temp.toInt - x →
        within → g.ingate = true → calm →
        (t.unit 0x04D).code = after ∧ t.chg.reason = 2 ∧ t.reg 0x1A1F = 1) ∧
      -- R518
      (c = 2 ∨ c = 6 ∨ ((c = 3 ∨ c = 5 ∨ (c = 4 ∧ mid)) ∧ within) → g.vmaxCheck = 0 → g.ingate = true →
        temp.toInt < tmin → (c = 3 → v < 2000 * n) →
        (t.unit 0x04D).code = 8 ∧ t.chg.left = c ∧ t.chg.susp ≠ 0 ∧ bit (t.reg 0x1A20) 4 = true))

/-- The power path, the thermistor and the tracking of the maximum power point (R257, R503, R504, R518 to R520, R523):
the input pair, VIN_OV and VIN_OK, the battery MOSFET, the hold of a reversed battery, the suspension by NTC_OPEN and
NTC_SHORT, the scan and its steps. What rests on log entries 66 and 75 is this model's choice or inference. -/
def Obligations.PowerPath : Prop :=
  ∀ (s : State) (p q : Nat) (d : Byte) (l : List (Word × Word × Word)),
    let u := s.unit 0x04D
    let c := u.code
    let g := s.chg
    let ok := decide (4500 ≤ p ∧ p ≤ 28500)
    let ov := if 28500 < p then true else if p < 28000 then false else s.present 3 5
    let on := ok && !ov && decide (((if g.ingate then 5 else 20) : Int) ≤ (p : Int) - q)
    let idle := u.fenced = true ∨ c = 0 ∨ c = 7 ∨ c = 8 ∨ c = 0xE ∨ c = 0xF
    let suspends (i : Instr) (src : Nat) : Prop :=
      s.present 3 src = false → (idle → Leaves i s (raised s 3 src)) ∧
        (u.fenced = false → 2 ≤ c → c ≤ 6 → g.vmaxCheck = 0 → g.ingate = true → ∃ t, Leaves i s t ∧
          (t.unit 0x04D) = { u with code := 8 } ∧ t.chg.susp = 1 ∧ t.chg.left = c ∧
          t.reg 0x1A20 = s.reg 0x1A20 ||| 0x11 ∧ t.occs = (s.occur 3 src 0).occs ∧ t.present 3 src = true)
    let tracks := u.fenced = false ∧ (c = 3 ∨ c = 4 ∨ c = 5) ∧ g.vmaxCheck = 0 ∧ (s.reg 0x1A01).toNat / 256 % 4 = 1
    let turn := match g.lastP with
      | some x => decide (1000 * g.pSum * x.2 < 995 * x.1 * g.pN)
      | none => false
    let live : Int := (s.reg 0x1A1D).toNat
    let stepped : Int := if g.dirUp != turn then live + ((s.reg 0x1A0C).toNat / 256 % 16 : Nat) * 50
      else live - ((s.reg 0x1A0C).toNat / 256 % 16 : Nat) * 50
    let clamp (x : Int) : Word := BitVec.ofInt 16 (max 4500 (min 28000 x))
    let power (x : Word × Word × Word) : Int := x.1.toNat * x.2.1.toInt
    let scanned : State := { s with chg := { g with scan := false, pSum := 0, pN := 0, lastP := none } }
    let off (m : State) : State := if s.present 3 6 then
        m.setFlt 0x306 { s.flt 0x306 with present := false, transient := (s.flt 0x306).transient || (s.flt 0x306).pend }
      else m
    let pair := (decide ((p : Int) - q > 20) || (g.pathOn && decide (5 ≤ (p : Int) - q))) && !g.buckHold
    (∃ t, Leaves (.inputPathChange p q) s t ∧ t.chg.vinOk = ok ∧ t.chg.ingate = on ∧ t.present 3 5 = ov ∧
      t.occs = (if ov ∧ s.present 3 5 = false then (s.occur 3 5 0).occs else s.occs) ∧
      (bit (t.reg 0x1A20) 2 = true ↔ bit (s.reg 0x1A20) 2 = true ∨ g.vinOk ≠ ok) ∧
      (u.fenced = false → 2 ≤ c → c ≤ 6 → g.vmaxCheck = 0 → on = false → t.unit 0x04D = { u with code := 1 }) ∧
      (idle ∨ 0 < g.vmaxCheck → t.unit 0x04D = u) ∧ t.chg.pathOn = g.pathOn) ∧
    (∃ t, Leaves .vinOv s t ∧ t.chg.vinOk = false ∧ t.chg.ingate = false ∧ t.present 3 5 = true ∧
      t.occs = (if s.present 3 5 then s.occs else (s.occur 3 5 0).occs) ∧
      (u.fenced = false → 2 ≤ c → c ≤ 6 → g.vmaxCheck = 0 → t.unit 0x04D = { u with code := 1 }) ∧
      (idle ∨ 0 < g.vmaxCheck → t.unit 0x04D = u)) ∧
    (pair = true → Leaves (.batteryPathChange p q) s { s with chg := { g with pathOn := true } }) ∧
    (pair = false → Leaves (.batteryPathChange p q) s (off { s with chg := { g with pathOn := false } })) ∧
    (g.pathOn = true → s.present 3 6 = false → d = 1 ∨ d = 2 →
      Leaves (.pathFlt d) s ((s.setFlt 0x306 { s.flt 0x306 with present := true }).occur 3 6 d)) ∧
    (g.pathOn = false ∨ s.present 3 6 = true ∨ (d ≠ 1 ∧ d ≠ 2) → Leaves (.pathFlt d) s s) ∧
    (s.present 3 0 = false →
      Leaves .batRev s (raised (off { s with chg := { g with buckHold := true, pathOn := false } }) 3 0)) ∧
    (s.present 3 0 = false → Leaves .batRevHoldEnd s { s with chg := { g with buckHold := false } }) ∧
    (s.present 3 0 = true → Leaves .batRevHoldEnd s s) ∧
    suspends .ntcOpen 1 ∧ suspends .ntcShort 2 ∧
    (tracks → Leaves .mpptScan s { s with chg := { g with scan := true, pSum := 0, pN := 0, lastP := none } }) ∧
    (¬tracks → Leaves .mpptScan s s) ∧
    (g.scan = true → l = [] → Leaves (.scandone l) s (scanned.setReg 0x1A20 (s.reg 0x1A20 ||| 8))) ∧
    (∀ (i : Nat) (x : Word × Word × Word), g.scan = true → l[i]? = some x →
      (∀ j y, l[j]? = some y → power y ≤ power x ∧ (j < i → power y < power x)) →
      Leaves (.scandone l) s ((scanned.setReg 0x1A1D (clamp x.2.2.toNat)).setReg 0x1A20 (s.reg 0x1A20 ||| 8))) ∧
    (g.scan = false → Leaves (.scandone l) s s) ∧
    (tracks → g.scan = false → Leaves .mpptStep s ({ s with chg := { g with
      dirUp := g.dirUp != turn, lastP := some (g.pSum, g.pN), pSum := 0, pN := 0 } }.setReg 0x1A1D (clamp stepped))) ∧
    (¬tracks → Leaves .mpptStep s s)

-- the interrupt router (10_interrupt_router.md)

/-- The router's accesses (R354 to R356, R362 to R366, R368, R369, R371, R378): pending words, doorbells, claims of a
host line and completions, each by the requester that may make it; any of them ends a deep sleep first. What rests on
log entries 11 and 60 is this model's choice or inference. -/
def Obligations.IrqAccesses : Prop :=
  ∀ (s : State) (r : Req) (v : Word), admitted s r = true →
    let q := s.irq.awake
    let left (c : Word) : State := s.setReq r { s.req r with lasterr := c }
    let done (c : Word) (t : Nat) (i : Instr) : Prop :=
      (srcBit v.toNat &&& q.clmOf t ≠ 0 → sourceNamed v.toNat = true → ∃ m, Leaves i s m ∧
        m = { s with irq := { q with clm := m.irq.clm } } ∧
        m.irq.clmOf t = q.clmOf t &&& ~~~srcBit v.toNat ∧ (∀ k, k ≠ t → m.irq.clmOf k = q.clmOf k)) ∧
      (srcBit v.toNat &&& q.clmOf t = 0 → sourceNamed v.toNat = true → Leaves i s (left c)) ∧
      (v < 0x400 → sourceNamed v.toNat = false → Leaves i s (left 0x0101))
    (∀ w : Fin 24, v &&& ~~~(regInfo (0x1C00 + w)).mask = 0 → ∃ p : BitVec 384,
      Leaves (.irqPendWrite r w v) s { s with irq := { q with pend := p } } ∧
      ∀ n, n < 384 → p.getLsbD n = if n / 16 = w then v.getLsbD (n % 16) else q.pend.getLsbD n) ∧
    (0x100 ≤ v → v ≤ 0x17F →
      Leaves (.irqDoorbell r v) s { s with irq := { q with pend := q.pend ||| srcBit v.toNat } }) ∧
    (v < 0x100 ∨ (0x17F < v ∧ v < 0x400) → Leaves (.irqDoorbell r v) s (left 0x0101)) ∧
    (r.isMgmt = true → ∀ b, done 0x0201 (if b then 5 else 4) (.irqCmplA r b v)) ∧
    (∀ n, r = .engine n → done 0x0201 n (.irqCmplE r v)) ∧
    (sourceNamed v.toNat = true → (r.isMgmt = false → ∀ b, Leaves (.irqCmplA r b v) s (left 0x0204)) ∧
      (r.isMgmt = true → Leaves (.irqCmplE r v) s (left 0x0204))) ∧
    (∀ b, r.isMgmt = true → Leaves (.irqClaimA r b) s (irqClaim s (if b then 5 else 4)).2) ∧
    (∀ b, r.isMgmt = false → Leaves (.irqClaimA r b) s (left 0x0204)) ∧
    ∀ t, t < 6 →
      let p := settleIrq { s with irq := q }
      let x := irqClaim s t
      x.2 = { s with irq := x.2.irq } ∧
      (∀ n, lowest (p.eligible t) = some n → x.1 = wd n ∧
        x.2.irq.pend = p.pend &&& ~~~srcBit n ∧ x.2.irq.clmOf t = p.clmOf t ||| srcBit n ∧
        (∀ k, k ≠ t → x.2.irq.clmOf k = p.clmOf k) ∧ x.2.irq.presOf t = lowest (x.2.irq.eligible t) ∧
        x.2.irq.holds = (if n < 10 then p.holds.filter fun h => h.1 ≠ n else p.holds) ∧ x.2.irq.en = p.en) ∧
      (lowest (p.eligible t) = none → x.1 = (if mget dOff p.taken t ∧ p.presOf t ≠ none then 0x3FF else 0x3FE) ∧
        x.2.irq.pend = p.pend ∧ x.2.irq.clm = p.clm ∧ x.2.irq.holds = p.holds ∧ x.2.irq.presOf t = none)

/-- What becomes pending (R351, R352, R357, R358, R377 to R379): after every command an asserted and unclaimed source is
pending, and one whose assertion fell is withdrawn; EXT_IRQ levels and edges; deep sleep saves the router and its end
restores it, a pending or enable word that fails its check as all set or as 0, with one RET_UE for each failing word.
What rests on log entries 50 and 60 is this model's choice or inference. -/
def Obligations.PendingSources : Prop :=
  (∀ (c : Instr) (s t : State) (n : Nat), exec c s = .next t → t.irq.asleep = false → n < 0x100 → asserted t n = true →
    t.irq.claimed.getLsbD n = false → t.irq.pend.getLsbD n = true) ∧
  (∀ (m : State) (n : Nat), m.irq.asleep = false → n < 0x100 → m.irq.asrt.getLsbD n = true → asserted m n = false →
    m.irq.claimed.getLsbD n = false → (settle m).irq.pend.getLsbD n = false) ∧
  (∀ (s : State) (n : Fin 8) (level : Bool),
    let mode := (s.reg (0x1D50 + n)).toNat % 8
    let mask : Byte := 1#8 <<< n.val
    let m : State := { s with extLvl := if level then s.extLvl ||| mask else s.extLvl &&& ~~~mask }
    let edge := s.extLvl.getLsbD n ≠ level ∧ (mode = 5 ∨ (mode = 3 ∧ level = true) ∨ (mode = 4 ∧ level = false))
    (edge → Leaves (.extIrqLevelChange n level) s (m.setReg 0x1D58 (s.reg 0x1D58 ||| wd (2 ^ n.val)))) ∧
    (¬edge → Leaves (.extIrqLevelChange n level) s m)) ∧
  (∀ (s : State),
    let q := settleIrq s
    let quiet := bit (s.reg 0x1D60) 0 = true ∧ s.irq.asleep = false ∧ q.claimed = 0 ∧ q.eligible 4 = 0 ∧
      q.eligible 5 = 0 ∧ ∀ n, n < 4 → (s.unit (0x38 + n)).code = 0 ∨ (s.unit (0x38 + n)).code = 2 ∨
        (s.unit (0x38 + n)).fenced = true
    (quiet → ∃ t, Leaves .deepSleepEnter s t ∧ t = { s with irq := t.irq, regs := t.regs } ∧ t.irq.asleep = true ∧
      t.irq.saved = some {
        pend := q.pend, en := q.en, clm := q.clm, pres := q.pres, taken := q.taken, holds := q.holds } ∧
      t.irq.pend = 0 ∧ (∀ a, a ≠ 0x1D61 → t.reg a = s.reg a) ∧
      t.reg 0x1D61 = wd ((s.reg 0x1D61).toNat % 256 + 256 * min 255 ((s.reg 0x1D61).toNat / 256 + 1))) ∧
    (¬quiet → Leaves .deepSleepEnter s s)) ∧
  (∀ (s : State) (v : IrqSaved) (badP badE : List Nat) (rest : List RetWord), s.irq.asleep = true → s.irq.saved = some v →
    (∀ w ∈ badP, w < 24) → (∀ w ∈ badE, w < 144) →
    ∃ t, Leaves (.deepSleepExit badP badE rest) s t ∧
      t = { s with irq := t.irq, regs := t.regs, occs := t.occs, fresh := t.fresh } ∧
      t.irq.asleep = false ∧ t.irq.saved = none ∧
      (rest = [] → t.irq.clm = v.clm ∧ t.irq.pres = v.pres ∧ t.irq.taken = v.taken ∧ t.fresh = s.fresh ∧
        ∀ a, a ≠ 0x1D61 → t.reg a = s.reg a) ∧
      (∀ n, n < 384 → t.irq.pend.getLsbD n = (v.pend.getLsbD n || (badP.contains (n / 16) && sourceNamed n))) ∧
      (∀ k n, k < 6 → n < 384 → (t.irq.enOf k).getLsbD n =
        ((mget dSet v.en k).getLsbD n && !badE.contains (24 * k + n / 16))) ∧
      t.occs.length = s.occs.length + badP.length + badE.length + rest.length ∧
      (bit (t.reg 0x1D61) 1 = true ↔ bit (s.reg 0x1D61) 1 = true ∨ badP ≠ [] ∨ badE ≠ [] ∨ rest ≠ [])) ∧
  (∀ (s : State) (badP badE : List Nat) (rest : List RetWord), s.irq.asleep = false →
    Leaves (.deepSleepExit badP badE rest) s s)

-- taps and measurement (11_taps_and_measurement.md)

/-- The tap operations (R392 to R398, R410, R411, R414): an open of each destination makes the tap under a new handle
and takes its first block, a close frees the index and every block, an inspection answers; a tap of another device is
asked for over the ring, and the command stays PENDING; a pop gives the oldest block back; and the codes of opens,
closes, inspections and pops that fail, a fenced tap's first (R29, R38, log entry 73). What rests on log entries 35, 42,
68, 73 and 79 is this model's choice or inference. -/
def Obligations.TapOperations : Prop :=
  ∀ (s : State) (r : Req),
    let q (op : Word) : State := setBank s r 0 op
    let a := bankArg s r
    let here := a 0 = (devId s).setWidth 16
    let src : Byte := (a 1).setWidth 8
    let dest := (a 3).toNat / 4 % 4
    let named := (a 1).toNat / 256 % 16
    let msg (op : Word) : Msg :=
      { kind := 3, dst := (a 0).setWidth 8, src := ringSelf s, tag := 0, count := 6, code := op, data := (List.range 6).map a }
    let sent (op : Word) : State := setBank (ringSend (q op) r (msg op)) r 0xA 1
    let away := a 0 &&& 0xFF00 = 0 ∧ (a 0).setWidth 8 ≠ devId s ∧ ringReach s ((a 0).setWidth 8) = true ∧
      s.ring.pend.length < 8
    (commandable s r = true →
      (∀ i, freeTap s = some i → ∀ c, here → tapArgCode s a = 0 → (named = 15 ∧ chooseConv s src = some c) ∨
          (named = c ∧ named ≠ 15 ∧ (s.unit (0x4E + c)).fenced = false ∧ bit (s.reg (0x3000 + 4 * c)) 0 = true) →
        (bit (a 3) 1 = true → hushOk s c src = true) → convFits s c src = true →
        (dest = 2 → Leaves (.tapOpen r) s (finishCmd (openTap (q 0x0501) r a c i none).1 r 0
          (openTap (q 0x0501) r a c i none).2)) ∧
        (dest ≠ 2 → ∀ b m, allocBlock (q 0x0501) (acctOf r) = some (b, m) →
          Leaves (.tapOpen r) s (finishCmd (openTap m r a c i (some b)).1 r 0 (openTap m r a c i (some b)).2)) ∧
        (dest ≠ 2 → allocBlock (q 0x0501) (acctOf r) = none →
          Leaves (.tapOpen r) s (finishCmd ((q 0x0501).setReg 0x3023 (s.reg 0x3023 ||| 1)) r 0x0301 []))) ∧
      (∀ i t, currentTap s (a 1) = some (i, t) → here → (s.unit (0x80 + i)).fenced = false →
        reqOwns r (s.unit (0x80 + i)) = true →
        let bs := t.queue ++ t.cur.toList
        Leaves (.tapClose r) s (finishCmd (convFollow ((freeBlocks ((q 0x0502).setTap i none) t.acct bs).setUnit (0x80 + i)
          { s.unit (0x80 + i) with code := 0, busy := false, gen := (s.unit (0x80 + i)).gen + 1, src := r.src }) t.conv) r 0
          [wd bs.length])) ∧
      (∀ i t, currentTap s (a 1) = some (i, t) → here → Leaves (.tapInfo r) s (finishCmd (q 0x0503) r 0
        [(s.unit (0x80 + i)).word, wd (min t.queue.length 127), t.lostAll])) ∧
      (here → currentTap s (a 1) = none → Leaves (.tapInfo r) s (finishCmd (q 0x0503) r 0x0202 [])) ∧
      -- the opens and closes that fail, in the order of R38
      (here → tapArgCode s a ≠ 0 → Leaves (.tapOpen r) s (finishCmd (q 0x0501) r (tapArgCode s a) [])) ∧
      (here → tapArgCode s a = 0 → named ≠ 15 → (bit (a 3) 1 = true → hushOk s named src = true) →
        ((s.unit (0x4E + named)).fenced = true → Leaves (.tapOpen r) s (finishCmd (q 0x0501) r 0x0401 [])) ∧
        ((s.unit (0x4E + named)).fenced = false → bit (s.reg (0x3000 + 4 * named)) 0 = false →
          Leaves (.tapOpen r) s (finishCmd (q 0x0501) r 0x0201 []))) ∧
      (here →
        let v := s.unit (0x80 + (a 1).toNat % 128)
        (v.fenced = true → Leaves (.tapClose r) s (finishCmd (q 0x0502) r 0x0401 [])) ∧
        (v.fenced = false → reqOwns r v = false → Leaves (.tapClose r) s (finishCmd (q 0x0502) r 0x0204 [])) ∧
        (v.fenced = false → reqOwns r v = true → currentTap s (a 1) = none →
          Leaves (.tapClose r) s (finishCmd (q 0x0502) r 0x0202 []))) ∧
      (a 0 &&& 0xFF00 ≠ 0 → Leaves (.tapOpen r) s (finishCmd (q 0x0501) r 0x0102 []) ∧
        Leaves (.tapClose r) s (finishCmd (q 0x0502) r 0x0102 []) ∧ Leaves (.tapInfo r) s (finishCmd (q 0x0503) r 0x0102 [])) ∧
      (a 0 &&& 0xFF00 = 0 → (a 0).setWidth 8 ≠ devId s → ringReach s ((a 0).setWidth 8) = false →
        Leaves (.tapClose r) s (finishCmd (q 0x0502) r 0x0402 []) ∧ Leaves (.tapInfo r) s (finishCmd (q 0x0503) r 0x0402 [])) ∧
      (away → (tapArgReserved a = false → tapArgRange a = false → dest ≠ 2 → Leaves (.tapOpen r) s (sent 0x0501)) ∧
        (tapArgReserved a = true → Leaves (.tapOpen r) s (finishCmd (q 0x0501) r 0x0102 [])) ∧ Leaves (.tapClose r) s (sent 0x0502) ∧
        Leaves (.tapInfo r) s (sent 0x0503))) ∧
    (∀ c i b (m : State), m.tap i = none → i < 127 → c < 8 →
      let x := openTap m r a c i b
      let g := mget dGen9 m.mea.gen i + 1
      let rate := mcRate m c * 1000 / (periodsPerSample x.1 c * (a 2).toNat)
      (∃ t, x.1.tap i = some t ∧ t.conv = c ∧ t.src = src ∧ t.every = a 2 ∧ t.queue = [] ∧ t.seq = 0 ∧ t.lostAll = 0 ∧
        t.firstNext = true ∧ t.skip = (a 2).toNat ∧ t.cur.isSome = b.isSome ∧ t.acct = acctOf r) ∧
      (∀ j, j ≠ i → x.1.tap j = m.tap j) ∧
      (x.1.unit (0x80 + i)).code = 1 ∧ (x.1.unit (0x80 + i)).gen = (m.unit (0x80 + i)).gen + 1 ∧
      (x.1.unit (0x80 + i)).owner = (if r.isMgmt then .management else .engine) ∧
      (∀ k, k ≠ 0x80 + i → k ≠ 0x4E + c → x.1.unit k = m.unit k) ∧
      x.2 = [wd (g.toNat * 128 + i), wd c, wd rate, wd (rate / 65536)] ∧
      mget dGen9 x.1.mea.gen i = g ∧ x.1 = { m with mea := x.1.mea, units := x.1.units }) ∧
    (∀ (ue : Bool) (v : Word), admitted s r = true →
      let f := s.req r
      let own := f.selDev = devId s
      let left (c : Word) : State := s.setReq r { f with lasterr := c }
      let stale := selQueue s r = none ∨ v ≠ f.selH ∨ (own ∧ currentTap s f.selH = none)
      -- a fenced tap of this device gives no block back (R29)
      (popFenced s r = true → Leaves (.tapPop r v ue) s (left 0x0401)) ∧
      (popFenced s r = false → stale → Leaves (.tapPop r v ue) s (left 0x0202)) ∧
      (popFenced s r = false → ¬stale → selQueue s r = some [] → Leaves (.tapPop r v ue) s (left 0x0201)) ∧
      (popFenced s r = false → v = f.selH →
        let found (m : State) : State := if ue then m.occur 8 2 0 else m
        (∀ i t, currentTap s v = some (i, t) → own → t.dest = 0 → ∀ b bs, t.queue = b :: bs →
          Leaves (.tapPop r v ue) s (found (freeBlock (s.setTap i (some { t with queue := bs })) t.acct b.resv))) ∧
        (∀ d, (s.mea.colq.find? fun k => decide (k.dev = f.selDev) && decide (k.handle = v)) = some d →
          (own → (currentTap s v).any (fun x => x.2.dest != 0) = true) → ∀ b bs, d.blocks = b :: bs →
          let m : State := { s with mea := { s.mea with colq := s.mea.colq.map fun k =>
            if k.dev = f.selDev ∧ k.handle = v then { k with blocks := k.blocks.drop 1 } else k } }
          Leaves (.tapPop r v ue) s (found (freeBlock m 9 b.resv)))) ∧
      (popFenced s r = true ↔ own ∧ (currentTap s f.selH).any (fun x => (s.unit (0x80 + x.1)).fenced) = true))

/-- Converters and samples (R383, R385 to R387, R401 to R409): the end of the conversion in progress gives its sample to
every tap bound to the converter, each DIV-th counts, a block takes it and closes when full, or before it where NH or
GAP changes, an engine's tap writes SRAM and rings its doorbell, a sample with no room is lost and counted; the period
boundary goes on to the next source or takes up changed settings; a hush that comes too late, and the external
reference. What rests on log entries 5, 41, 42, 43, 44, 54, 55 and 79 is this model's choice or inference. -/
def Obligations.TapSamples : Prop :=
  (∀ (s : State) (c : Fin 8) (x : Sample),
    let u := s.unit (0x4E + c)
    let v := s.conv c
    let m := (boundTaps s c).foldl (fun (s : State) (p : Nat × Tap) => tapSample s p.1 x (s.clock.t + BitVec.ofInt 64 x.err)) s
    let runs := u.code = 2 ∧ u.fenced = false ∧ v.srcs[v.slot]? = some x.src ∧ v.hush ≠ .asked ∧
      x.err.natAbs ≤ (if v.hush = .hushed then 5 * (s.rail v.rail).per.toNat + 1000 else 78) * 4294967296 / 1000000000
    let gives := bit v.cfg 1 = true ∨ s.mea.extrefOk = true
    (runs → gives → Leaves (.conversionEnd c x) s (convBoundary { m with fresh := m.fresh + 2 } c)) ∧
    (runs → ¬gives → Leaves (.conversionEnd c x) s (convBoundary s c)) ∧
    (¬runs → Leaves (.conversionEnd c x) s s)) ∧
  (∀ (s : State) (c : Nat), c < 8 →
    let v := s.conv c
    let t := convBoundary s c
    let slot := if v.slot + 1 < v.srcs.length then v.slot + 1 else 0
    let wants (src : Byte) : Bool := (boundTaps s c).any fun p => p.2.hush && p.2.src == src
    let hush (src : Byte) : ConvHush :=
      if !wants src then .unasked else if hushAccepts s (hushRail s src) then .asked else .unhushed
    (convMoved s c = false → t = { s with mea := { s.mea with convs := t.mea.convs } } ∧
      (∀ k, k ≠ c → t.conv k = s.conv k) ∧
      (∀ src, v.srcs[slot]? = some src →
        t.conv c = { v with slot := slot, hush := hush src, rail := hushRail s src, acc := 0 })) ∧
    (convMoved s c = true →
      (∀ i x, (i, x) ∈ boundTaps s c → Canonical s → ∃ y, t.tap i = some y ∧ y.gapNext = true ∧ y.lostAll = x.lostAll ∧
        (∀ b, y.cur = some b → b.data = [])) ∧
      (t.conv c).cfg = s.reg (0x3000 + 4 * c) &&& 6 ∧ (t.conv c).rate = s.reg (0x3001 + 4 * c) ∧ (t.conv c).slot = 0)) ∧
  (∀ (s : State) (x : Sample) (stamp : BitVec 64) (i : Nat) (t : Tap), s.tap i = some t →
    let u := s.unit (0x80 + i)
    let nh := (s.conv t.conv).hush == .unhushed || (t.hush && (s.conv t.conv).hush != .hushed)
    let ws := sampleWords s t x
    -- a ring tap whose collector is this device
    let own := t.dest == 1 && t.arg4.setWidth 8 == devId s
    let t' : Tap := { t with skip := t.every.toNat }
    let r := tapSample s i x stamp
    let one (l : Word) : Word := wd (min 65535 (l.toNat + 1))
    let lost (m : State) : State :=
      (m.setTap i (some { t' with lost := one t.lost, lostAll := one t.lostAll, gapNext := true })).setUnit (0x80 + i)
        { u with code := 3 }
    let taken := t.src = x.src ∧ t.skip ≤ 1 ∧ u.fenced = false ∧ proofRun s = 0
    (t.src ≠ x.src → r = s) ∧
    (t.src = x.src → 1 < t.skip → r = s.setTap i (some { t with skip := t.skip - 1 })) ∧
    (t.src = x.src → t.skip ≤ 1 → u.fenced = true → r = s.setTap i (some t')) ∧
    (t.src = x.src → t.skip ≤ 1 → u.fenced = false → proofRun s ≠ 0 → r = lost s) ∧
    (taken → t.dest = 2 → 0x8000 ≤ t.arg4 →
      let b := t.arg4.toNat - 0x8000
      (∀ k, k < ws.length → r.sramAt (b + k) = ws.getD k 0) ∧
      r.sramAt (b + ws.length) = wd ((t.count + 1).toNat + 256 * b2n t.gapNext + 512 * b2n nh) ∧
      (∀ k, k < b ∨ b + ws.length < k → r.sramAt k = s.sramAt k) ∧
      r.tap i = some { t' with gapNext := false, firstNext := false, count := t.count + 1 } ∧
      r.unit (0x80 + i) = { u with code := 2 } ∧
      r.irq = (if t.arg5 = 0xFFFF then s.irq else s.irq.ring t.arg5.toNat) ∧
      r = { s with sram := r.sram, mea := r.mea, units := r.units, irq := r.irq }) ∧
    (taken → t.dest ≠ 2 → t.cur = none →
      (t.dest = 0 → t.arg4.toNat ≤ t.queue.length → r = lost s) ∧
      (t.dest ≠ 0 ∨ t.queue.length < t.arg4.toNat → allocBlock s t.acct = none →
        r = lost (s.setReg 0x3023 (s.reg 0x3023 ||| 1))) ∧
      (∀ v n, allocBlock s t.acct = some (v, n) → t.dest ≠ 0 ∨ t.queue.length < t.arg4.toNat →
        r = (n.setTap i (some { t' with
          cur := some { emptyBlock s i t v with gap := t.gapNext, nh := nh, refInt := bit (s.conv t.conv).cfg 1, lost := t.lost
                                                stamp := stamp, spacing := spacing n t t.every.toNat, data := ws }
          gapNext := false, firstNext := false, lost := 0 })).setUnit (0x80 + i) { u with code := 2 })) ∧
    -- a block closes before a sample whose NH or GAP differs, and the tap then stands as one without a block
    (∀ b, t.cur = some b → taken → t.dest ≠ 2 → b.data ≠ [] → 54 ≤ b.data.length ∨ b.nh ≠ nh ∨ t.gapNext = true →
      let d : Block := { b with seq := t.seq }
      let k := s.setTap i (some { t with cur := none, seq := t.seq + 1, queue := if own then t.queue else t.queue ++ [d] })
      r = tapSample (if own then collect (freeBlock k t.acct b.resv) (devId s) d else k) i x stamp) ∧
    (∀ b, t.cur = some b → taken → t.dest ≠ 2 → b.data ≠ [] → b.nh = nh → t.gapNext = false →
      b.data.length + ws.length < 54 →
      let y : Tap := { t' with cur := some { b with data := b.data ++ ws }, gapNext := false, firstNext := false, lost := 0 }
      r = (s.setTap i (some y)).setUnit (0x80 + i) { u with code := 2 }) ∧
    (∀ b, t.cur = some b → taken → t.dest ≠ 2 → b.data = [] → b.nh = nh → t.gapNext = false →
      let y : Tap := { t' with
        cur := some { b with handle := wd ((mget dGen9 s.mea.gen i).toNat * 128 + i), form := t.form, gap := false, first := t.firstNext
                             refInt := bit (s.conv t.conv).cfg 1, seq := t.seq, lost := t.lost, stamp := stamp
                             spacing := spacing s t t.every.toNat, data := ws }
        gapNext := false, firstNext := false, lost := 0 }
      r = (s.setTap i (some y)).setUnit (0x80 + i) { u with code := 2 }) ∧
    (∀ b, t.cur = some b → taken → t.dest ≠ 2 → b.data ≠ [] → b.nh = nh → t.gapNext = false →
      b.data.length < 54 → 54 ≤ b.data.length + ws.length →
      let d : Block := { b with data := b.data ++ ws, seq := t.seq }
      let y : Tap := { t' with cur := none, gapNext := false, firstNext := false, lost := 0, seq := t.seq + 1
                               queue := if own then t.queue else t.queue ++ [d] }
      let k := (s.setTap i (some y)).setUnit (0x80 + i) { u with code := 2 }
      let m := if own then collect (freeBlock k t.acct b.resv) (devId s) d else k
      (t.dest = 0 → t.arg4.toNat ≤ y.queue.length → r = m) ∧
      (t.dest ≠ 0 ∨ y.queue.length < t.arg4.toNat → allocBlock m t.acct = none →
        r = m.setReg 0x3023 (m.reg 0x3023 ||| 1)) ∧
      (∀ v n, allocBlock m t.acct = some (v, n) → t.dest ≠ 0 ∨ y.queue.length < t.arg4.toNat →
        r = n.setTap i (some { y with cur := some (emptyBlock n i y v) })))) ∧
  (∀ (s : State) (c : Fin 8) (n : Fin 16),
    let v := s.conv c
    (v.hush = .asked ∧ v.rail = n.val → Leaves (.hushWaitTimeout c n) s (s.setConv c { v with hush := .unhushed })) ∧
    (¬(v.hush = .asked ∧ v.rail = n.val) → Leaves (.hushWaitTimeout c n) s s)) ∧
  (∀ (s : State),
    (s.mea.extrefOk = true →
      Leaves .extrefLoss s ({ s with mea := { s.mea with extrefOk := false } }.setReg 0x3023 (s.reg 0x3023 ||| 2)) ∧
      Leaves .extrefReturn s s) ∧
    (s.mea.extrefOk = false → Leaves .extrefLoss s s ∧ (Canonical s →
      ∃ t, Leaves .extrefReturn s t ∧ t = { s with mea := { s.mea with extrefOk := true, taps := t.mea.taps } } ∧
        ∀ i x, s.tap i = some x → x.conv < 8 →
          let cfg := if (s.conv x.conv).srcs = [] then s.reg (0x3000 + 4 * x.conv) else (s.conv x.conv).cfg
          t.tap i = some { x with gapNext := x.gapNext || !bit cfg 1 })))

-- the device ring (12_device_ring.md)

/-- The lanes and the ring's links (R66, R431 to R433, R436, R437, R650): a lane comes UP or falls DOWN, a transmit lane
with its receive lane or with what its neighbour reports; a loop ends where its link has been good for 1000 cycles; a
counter block is cleared, a PRBS checker counts, the island leaves reset; and the change flags, the conditions and the
loops follow every such event. What rests on log entries 69 and 76 is this model's choice or inference. -/
def Obligations.RingLinks : Prop :=
  ∀ (s : State) (n : Fin 4),
    let g := s.ring
    let k := 0x48 + n.val
    let u := s.unit k
    let a := 0x4040 + 0x10 * n.val
    let falls (j : Nat) : Prop := g.live = true ∧ (s.unit (0x48 + j)).fenced = false ∧
      ((s.unit (0x48 + j)).code = 1 ∨ (s.unit (0x48 + j)).code = 2 ∨ (s.unit (0x48 + j)).code = 3)
    let pair : Nat := if n = 0 then 3 else if n = 2 then 1 else n.val
    let upMay := g.live = true ∧ u.fenced = false ∧ (u.code = 1 ∨ u.code = 4)
    -- a transmit lane that its pair or its neighbour holds down
    let held (t : State) : Prop := (n = 3 ∧ ((t.unit 0x48).code = 4 ∨ 4 ≤ g.west.losRun)) ∨
      (n = 1 ∧ ((t.unit 0x4A).code = 4 ∨ 4 ≤ g.east.losRun))
    let good (j : Nat) : Prop :=
      (s.unit (0x48 + j)).fenced = false ∧ (s.unit (0x48 + j)).code = 2 ∧ (s.lane j).cnt < 96
    let base (t : State) : Prop := t = { s with ring := t.ring, units := t.units, regs := t.regs, fsrc := t.fsrc,
                                                occs := t.occs, floor := t.floor }
    (upMay → ∃ t, Leaves (.laneUp n) s t ∧ (held t → t.unit k = { u with code := 4 } ∧ t.present 4 n = true) ∧
      (¬held t → t.unit k = { u with code := 2 } ∧ t.present 4 n = false ∧
        (bit (t.reg (a + 8)) 0 = true ↔ bit (s.reg (a + 8)) 0 = true ∨ u.code = 4)) ∧
      (∀ j, j < 0x48 ∨ 0x4B < j → t.unit j = s.unit j) ∧ t.lane n = { s.lane n with wasUp := true } ∧ base t) ∧
    (¬upMay → Leaves (.laneUp n) s s) ∧
    (n = 0 ∨ n = 2 → falls n → ∃ t, Leaves (.laneDown n) s t ∧ t.unit k = { u with code := 4 } ∧ bit (t.reg (a + 8)) 0 = true ∧
      t.present 4 n = true ∧ (falls pair → (t.unit (0x48 + pair)).code = 4 ∧ t.present 4 pair = true) ∧
      (∀ j, j ≠ k → j ≠ 0x49 → j ≠ 0x4B → t.unit j = s.unit j) ∧ base t) ∧
    -- a transmit lane goes down for the two reasons of R432 alone, which every event judges
    (n = 1 ∨ n = 3 ∨ ¬falls n → Leaves (.laneDown n) s (ringJudge s)) ∧
    (good 0 → good 3 → 1000 ≤ g.goodW → Leaves (.wrapEnd false) s (ringJudge { s with ring := { g with loopW := false } })) ∧
    (good 1 → good 2 → 1000 ≤ g.goodE → Leaves (.wrapEnd true) s (ringJudge { s with ring := { g with loopE := false } })) ∧
    (¬good 0 ∨ ¬good 3 ∨ g.goodW < 1000 → Leaves (.wrapEnd false) s s) ∧
    (¬good 1 ∨ ¬good 2 ∨ g.goodE < 1000 → Leaves (.wrapEnd true) s s) ∧
    (∀ r, admitted s r = true →
      (u.fenced = false → Leaves (.lanenClr r n 0) s ((((s.setReg (a + 3) 0).setReg (a + 4) 0).setReg (a + 5) 0).setReg (a + 6) 0)) ∧
      (u.fenced = true → Leaves (.lanenClr r n 0) s (s.setReq r { s.req r with lasterr := 0x0401 })) ∧
      ∀ v, v ≠ 0 → Leaves (.lanenClr r n v) s (s.setReq r { s.req r with lasterr := 0x0101 })) ∧
    (∀ locked errors, (u.code = 5 → u.fenced = false → Leaves (.prbsLock n locked errors) s
        ((s.setLane n { s.lane n with prbsLock := locked }).setReg (a + 6)
          (wd (min 65535 ((s.reg (a + 6)).toNat + errors))))) ∧
      (u.code ≠ 5 → Leaves (.prbsLock n locked errors) s s)) ∧
    -- each supply is good within its own window; the island leaves reset once both are
    (∀ serMv seraMv,
      let ser := decide (830 ≤ serMv ∧ serMv ≤ 970)
      let sera := decide (1110 ≤ seraMv ∧ seraMv ≤ 1290)
      let both := (s.supply.serOk || ser) && (s.supply.seraOk || sera)
      ∃ t, Leaves (.serOkRise serMv seraMv) s t ∧
        t.supply = { s.supply with serOk := s.supply.serOk || ser, seraOk := s.supply.seraOk || sera } ∧
        t.present 0 5 = (s.present 0 5 && !ser) ∧ t.present 0 6 = (s.present 0 6 && !sera) ∧
        t.ring.live = (g.live || both) ∧
        (g.live = false → both = true → u.fenced = false → bit (s.reg a) 0 = true →
          t.unit k = { u with code := if bit (s.reg a) 1 then 5 else 1 } ∨ (held t ∧ t.unit k = { u with code := 4 })) ∧
        (both = false ∨ g.live = true ∨ u.fenced = true ∨ (bit (s.reg a) 0 = false ∧ u.code = 0) → t.unit k = u) ∧
        (∀ j, j < 0x48 ∨ 0x4B < j → t.unit j = s.unit j) ∧
        (both = false ∨ g.live = true → t = { s with supply := t.supply, fsrc := t.fsrc }) ∧
        t = { s with ring := t.ring, supply := t.supply, units := t.units, regs := t.regs, fsrc := t.fsrc, occs := t.occs
                     floor := t.floor }) ∧
    (let t := ringJudge s
      let bad := if ringUpNow s = true ∧ ringTimeOk s = false then g.badRun else 0
      t.ring.up = ringUpNow s ∧ t.ring.wrap = ringWrapNow s ∧ t.present 4 8 = ringWrapNow s ∧ t.ring.badRun = bad ∧
      t.present 4 9 = (g.lost || decide (1000000 < bad)) ∧
      ((s.unit 0x48).code = 4 ∨ 4 ≤ g.west.losRun → falls 3 → (t.unit 0x4B).code = 4) ∧
      ((s.unit 0x4A).code = 4 ∨ 4 ≤ g.east.losRun → falls 1 → (t.unit 0x49).code = 4) ∧
      ((s.unit 0x48).code ≠ 4 → g.west.losRun < 4 → t.unit 0x4B = s.unit 0x4B) ∧
      ((s.unit 0x4A).code ≠ 4 → g.east.losRun < 4 → t.unit 0x49 = s.unit 0x49) ∧
      (∀ j, j ≠ 0x49 → j ≠ 0x4B → t.unit j = s.unit j) ∧
      t.reg 0x4008 = s.reg 0x4008 ||| (if g.up = ringUpNow s then 0 else 1) ||| (if g.wrap = ringWrapNow s then 0 else 2) ∧
      t.ring.loopW = (ringOn s && (g.loopW || westBroken t)) ∧
      t.ring.loopE = (ringOn s && (g.loopE || eastBroken t)) ∧
      t.floor = (floorSync t).floor ∧ base t)

/-- The ring's time, master and alarm (R438 to R441, R449, R450, R461): the elected master, its loss, the pulse that
steers device time, PPS_OUT, a barrier's release that ends, the end of the alarm, and the seconds value that takes
effect at a whole second and ends its command. What rests on log entries 9, 67 and 69 is this model's choice or
inference. -/
def Obligations.RingTime : Prop :=
  ∀ (s : State) (r : Req) (id : Byte) (inst : Nat),
    let g := s.ring
    let steers := ringMaster s = true ∧ bit (s.reg 0x4000) 3 = true
    let flag (m : State) (b : Word) : State := m.setReg 0x4008 (s.reg 0x4008 ||| b)
    let sec : Int := 4294967296 * 390625
    let x := Int.emod ((s.clock.t.toNat : Int) * 390625 + s.clock.frac + inst - Int.tdiv ((s.reg 0x4005).toInt * 16777216) 10) sec
    let carries := laneCarries s 0 = true ∨ laneCarries s 2 = true
    let heard (n : Nat) (d : SideRx) : Prop := laneCarries s n = false ∨ (d.named = some id ∧ 64 ≤ d.namedRun)
    let elects := ringOn s = true ∧ carries ∧ heard 0 g.west ∧ heard 2 g.east
    let quiet := 16 ≤ g.nameAge ∨ ringOn s = false ∨ ¬carries
    let over_ (m : Map Nat) : Bool :=
      decide ((256 ≤ mget dNat m 0 ∨ laneCarries s 1 = false) ∧ (256 ≤ mget dNat m 1 ∨ laneCarries s 3 = false))
    (elects → ∃ t, Leaves (.masterElected id) s t ∧ t.ring.master = some id ∧ t.ring.lost = false ∧
      t.ring.txCyc = g.cyc ∧ t.ring.nameAge = 0 ∧ (g.master ≠ some id → bit (t.reg 0x4008) 2 = true) ∧
      t.present 4 9 = decide (1000000 < t.ring.badRun) ∧ (∀ k, k ≠ 0x49 → k ≠ 0x4B → t.unit k = s.unit k) ∧
      t = { s with ring := t.ring, units := t.units, regs := t.regs, fsrc := t.fsrc, occs := t.occs, floor := t.floor }) ∧
    (¬elects → Leaves (.masterElected id) s s) ∧
    (g.master ≠ none → quiet → Leaves .timeLoss s (ringJudge (flag { s with ring := { g with master := none, lost := true } } 4))) ∧
    (g.master = none ∨ ¬quiet → Leaves .timeLoss s s) ∧
    (steers → ∃ t, Leaves (.ppsInEdge inst) s t ∧
      t.clock = { s.clock with slew := if x * 2 < sec then -x else sec - x } ∧ t.present 9 2 = false ∧
      t = { s with clock := t.clock, fsrc := t.fsrc }) ∧
    (¬steers → Leaves (.ppsInEdge inst) s s ∧ Leaves .ppsLoss s s) ∧
    (steers → s.present 9 2 = false → Leaves .ppsLoss s (raised s 9 2)) ∧
    (bit (s.reg 0x4000) 4 = true → ringTimeOk s = true → Leaves (.ppsOut true) s { s with ring := { g with pps := true } }) ∧
    (bit (s.reg 0x4000) 4 = false ∨ ringTimeOk s = false → Leaves (.ppsOut true) s s) ∧
    Leaves (.ppsOut false) s { s with ring := { g with pps := false } } ∧
    (∀ b : Byte, ringMaster s = true → ringWaiting s b = 0 → 1000 ≤ mget dNat g.barRun b.toNat →
      Leaves (.ringBarrierClear b) s { s with ring := { g with release := g.release &&& ~~~(1#256 <<< b.toNat) } }) ∧
    (∀ b : Byte, ringMaster s = false ∨ ringWaiting s b ≠ 0 ∨ mget dNat g.barRun b.toNat < 1000 →
      Leaves (.ringBarrierClear b) s s) ∧
    Leaves .estopTxEnd s { s with ring := { g with
      estopTx := g.estopTx && !over_ g.estopN, relayed := if g.relayed = 1 ∧ over_ g.relayN = true then 2 else g.relayed } } ∧
    (commandable s r = true →
      let q := setBank s r 0 0x0604
      let a := bankArg s r
      (ringUpNow s = true → ringMaster s = true → g.tset = none → Leaves (.ringTset r) s
        (setBank { q with ring := { g with tset := some (a 1 ++ a 0, some r) } } r 0xA 1)) ∧
      (ringUpNow s = true → ringMaster s = false → g.tset = none → Leaves (.ringTset r) s (finishCmd q r 0x0201 [])) ∧
      (ringUpNow s = true → g.tset ≠ none → Leaves (.ringTset r) s (finishCmd q r 0x0302 [])) ∧
      (ringUpNow s = false → Leaves (.ringTset r) s (finishCmd q r 0x0402 []))) ∧
    (∀ v, g.tset = some (v, some r) →
      let m : State := { s with ring := { g with tset := none } }
      let t : BitVec 64 := v ++ s.clock.t.setWidth 32
      let l := logPut m 9 false (timeWords s.clock.t ++ timeWords t)
      (ringMaster s = true → Leaves .ringTsetApply s
        (finishCmd (forgetMarkers { l with clock := { s.clock with t := t } }) r 0 [])) ∧
      (ringMaster s = false → Leaves .ringTsetApply s (finishCmd m r 0x0201 []))) ∧
    (g.tset = none → Leaves .ringTsetApply s s)

/-- Cycles of the ring (R423, R426 to R430, R433, R434, R436, R438, R442 to R446, R450, R453, R460, R461, R463): what a
received cycle, taken apart from its codewords, leaves in the counters, the beacons, the ages and device time, and what
of it goes on; and what this device sends. What rests on log entries 9 and 69 is this model's choice or inference. -/
def Obligations.RingCycles : Prop :=
  (∀ (s : State) (x : RingRx),
    let p := rxParts x.codewords
    let beacon := p.beacon.bind beaconOf
    let ln := if x.ring1 then 2 else 0
    let a := 0x4040 + 0x10 * ln
    let c := (s.unit (0x48 + ln)).code
    let wrong (l : List (Option (List Byte))) : Nat := l.countP fun y => match y with
      | some bs => !crcGood bs
      | none => false
    let errs := 8 * p.uncorrectable + (wrong [p.beacon] + if c = 3 then 0 else wrong (p.slots ++ p.conts))
    let old := (s.lane ln).cnt
    let new := if errs = 0 then old - 1 else min 511 (old + errs)
    let carries := ringOn s = true ∧ (s.unit (0x48 + ln)).fenced = false ∧ (c = 2 ∨ c = 3)
    let side (t : State) : SideRx := if x.ring1 then t.ring.east else t.ring.west
    let was := side s
    let markers := (s.lane (if x.ring1 then 1 else 3)).sentAt
    (carries → ∃ t, Leaves (.ringCycleRx x) s t ∧
      t.reg (a + 5) = wd (min 65535 ((s.reg (a + 5)).toNat + p.uncorrectable)) ∧
      t.pair (a + 3) = BitVec.ofNat 32 (min 4294967295 ((s.pair (a + 3)).toNat + p.corrected)) ∧
      (t.lane ln).cnt = new ∧ (t.lane ln).rxBad = p.uncorrectable ∧
      (c = 2 → old < 256 → 256 ≤ new → (t.unit (0x48 + ln)).code = 3 ∧ bit (t.reg (a + 8)) 2 = true) ∧
      (c = 3 → new < 96 → (t.unit (0x48 + ln)).code = 2 ∧ bit (t.reg (a + 8)) 3 = true) ∧
      (c = 2 → old < 256 → new < 256 → (t.unit (0x48 + ln)).code = 2) ∧
      (∀ b, beacon = some b →
        side t = { hops := some b.hops, tvalid := b.tvalid, wrap := b.wrap, cyc := b.cycle, slice := b.slice
                   losRun := if b.losrep then satInc was.losRun 4 else 0
                   named := if b.mvalid then some b.master else none
                   namedRun := if b.mvalid = false then 0 else if was.named = some b.master then satInc was.namedRun 64
                     else 1 } ∧
        (t.lane ln).rxAt = timeOf (rxInstant s x) ∧ (t.lane ln).rxCyc = b.cycle ∧ t.ring.cyc = b.cycle ∧
        t.pair 0x400E = b.cycle ∧
        (b.sender = ringSelf s → (∀ y ∈ (s.lane (if x.ring1 then 3 else 1)).sentAt, y.1 = b.cycle → timeOf y.2 ≠ b.tTx) →
          t.ring.dup = true ∧ (s.ring.dup = false → bit (t.reg 0x4008) 4 = true))) ∧
      -- the neighbour's FECREP steps the counter of the transmit lane of the link (R433)
      (∀ b, beacon = some b →
        let l := if x.ring1 then 1 else 3
        let m := b.fecrep.toNat
        let was := (s.lane l).cnt
        let now := if m = 0 then was - 1 else min 511 (was + 8 * m)
        (laneCarries s l = true → (t.lane l).cnt = now ∧
          t.reg (0x4045 + 0x10 * l) = wd (min 65535 ((s.reg (0x4045 + 0x10 * l)).toNat + m)) ∧
          (was < 96 → 96 ≤ now → bit (t.reg (0x4048 + 0x10 * l)) 1 = true) ∧
          ((s.unit (0x48 + l)).code = 2 → was < 256 → 256 ≤ now → bit (t.reg (0x4048 + 0x10 * l)) 2 = true) ∧
          ((s.unit (0x48 + l)).code = 3 → now < 96 → bit (t.reg (0x4048 + 0x10 * l)) 3 = true)) ∧
        (laneCarries s l = false → (t.lane l).cnt = was ∧ t.reg (0x4045 + 0x10 * l) = s.reg (0x4045 + 0x10 * l))) ∧
      (beacon = none → side t = { was with cyc := was.cyc + 1, slice := was.slice + 1, losRun := 0, namedRun := 0 } ∧
        (t.lane ln).rxAt = (s.lane ln).rxAt ∧ (t.lane ln).rxCyc = (s.lane ln).rxCyc ∧ t.ring.cyc = s.ring.cyc) ∧
      (∀ k z, p.conts[k]? = some z → ∀ bs, z = some bs → ∀ y, containerOf bs = some y → c = 2 → y.present = true →
        y.src.toNat = k → mget dAge t.ring.age k = 0) ∧
      (p.emergency = some (List.replicate 16 0xE5) → 512 ≤ s.ring.quiet →
        (bit (t.reg 0x4008) 5 = true ∧ t.ring.quiet = 0)) ∧
      (ringMaster s = true ∨ beacon = none ∨ x.ring1 ≠ upEast t →
        t.clock = s.clock) ∧
      (∀ b, beacon = some b → ringMaster s = false → x.ring1 = upEast t →
        (∀ l q k, markers = l ++ q :: k → (∀ y ∈ l, y.1 ≠ b.cycRx) → q.1 = b.cycRx →
          -- the parts below 2^-32 s are in 1/16 symbols, the resolution of a marker time
          let part (n : Nat) : Nat := n * 65536 / 35
          let d1 := rxInstant s x - (b.tTx.toNat * 390625 + part x.fineTx.val)
          let d2 := (b.tRx.toNat * 390625 + part x.fineRx.val : Int) - q.2
          let asym := (s.reg (if x.ring1 then 0x4007 else 0x4006)).toInt
          t.clock = (ringMeasured s (10000 * (d1 - d2) - 16777216 * asym) (10000 * (d1 + d2))).clock) ∧
        ((∀ y ∈ markers, y.1 ≠ b.cycRx) → t.clock = s.clock)) ∧
      (∀ out : Bool, feedEast s out = x.ring1 → (side t).hops ≠ none → laneCarries t (if out then 3 else 1) = true →
        ∃ h, mget dHeld t.ring.held (b2n out) = mget dHeld s.ring.held (b2n out) ++ [h] ∧ h.cyc = (side t).cyc ∧
          some h.hops = (side t).hops ∧ h.wrap = (side t).wrap ∧ h.slice = (side t).slice ∧
          h.emergency = p.emergency.getD (List.replicate 16 0)) ∧
      (t.ring.inM = s.ring.inM ++
        if c = 2 ∧ t.ring.dup = false ∧
          (if x.ring1 then (s.ring.loopW = true ∨ ringWrapNow t = true) ∧ s.ring.loopE = false else s.ring.loopW = false)
        then p.slots.filterMap (slotTaken s) else []) ∧
      (∀ k, k < 0x48 ∨ 0x4B < k → t.unit k = s.unit k) ∧
      t.floor = { s.floor with cyc := t.floor.cyc, hold := t.floor.hold } ∧
      t.sram = s.sram ∧ t.reqs = s.reqs ∧ t.rails = s.rails ∧ t.ldos = s.ldos ∧ t.seq = s.seq ∧ t.boot = s.boot ∧
      t.otp = s.otp ∧ t.rtc = s.rtc ∧ t.timers = s.timers ∧ t.engs = s.engs ∧ t.draught = s.draught) ∧
    (¬carries → Leaves (.ringCycleRx x) s s)) ∧
  -- twice the offset and twice the delay, in 10000ths of 2^-32 s / 390625
  (∀ (s : State) (a b : Int),
    let t := ringMeasured s a b
    let ps : Int := 16777216
    let d := Int.tdiv a 20000
    (s.ring.okRun ≤ 16 →
      t.ring.okRun = if (a.natAbs : Int) < 200000 * ps then min 16 (s.ring.okRun + 1) else 0) ∧
    ((a.natAbs : Int) < 20000000 * ps → t.clock = { s.clock with slew := -d } ∧ t.reg 0x4008 = s.reg 0x4008) ∧
    (20000000 * ps ≤ (a.natAbs : Int) → t.clock = { s.clock with
        t := BitVec.ofInt 64 (Int.fdiv ((s.clock.t.toNat : Int) * 390625 + s.clock.frac - d) 390625), frac := 0, slew := 0 } ∧
      t.reg 0x4008 = s.reg 0x4008 ||| 8)) ∧
  (∀ (s : State) (ring1 : Bool) (inst : Fin 35840) (pad : Fin 3),
    let ln := if ring1 then 3 else 1
    let j := b2n ring1
    let g := s.ring
    let waiting := mget dHeld g.held j
    -- the master begins a cycle; before one is elected, a candidate that has none to send on
    let m := ringMaster s || (g.master.isNone && (selfCandidate s).isSome && waiting.isEmpty)
    let carries := ringOn s = true ∧ laneCarries s ln = true
    let muted := (s.unit (0x48 + ln)).code = 3
    let rx := s.lane (if ring1 then 0 else 2)
    let best := betterOf (selfCandidate s) (bestHeard s)
    let estop := g.estopTx = true ∧ mget dNat g.estopN j < 256
    let relays := g.relayed = 1 ∧ mget dNat g.relayN j < 256
    (carries → m = true ∨ waiting ≠ [] → ∃ t, Leaves (.ringCycleTx ring1 inst pad) s t ∧
      ∃ y, mget dSent t.ring.sent j = some y ∧ mget dHeld t.ring.held j = waiting.drop 1 ∧
      (let b := y.beacon;
        b.sender = ringSelf s ∧ b.tTx = timeOf (txInstant s ln inst.val) ∧ b.tRx = rx.rxAt ∧ b.cycRx = rx.rxCyc ∧
        b.fecrep = BitVec.ofNat 8 (min 255 rx.rxBad) ∧
        b.losrep = ((s.unit (if ring1 then 0x48 else 0x4A)).code == 4) ∧ b.tvalid = ringTimeOk s ∧
        b.mvalid = best.isSome ∧ (∀ z, best = some z → b.pri = z.1 ∧ b.master = z.2) ∧
        b.release = (g.release >>> (16 * b.slice.toNat)).setWidth 16 ∧
        (m = true → b.hops = 0 ∧ b.slice = b.cycle.setWidth 4 ∧ b.wrap = (g.loopW || g.loopE) ∧ b.cycle = t.ring.txCyc ∧
          (ring1 = !laneCarries s 1 → t.ring.txCyc = g.txCyc + 1) ∧ (ring1 = laneCarries s 1 → t.ring.txCyc = g.txCyc)) ∧
        (∀ f l, waiting = f :: l → m = false → b.hops = f.hops + 1 ∧ b.slice = f.slice ∧ b.cycle = f.cyc ∧
          b.wrap = (g.loopW || g.loopE || f.wrap)) ∧
        (t.lane ln).sentAt = ((b.cycle, txInstant s ln inst.val) :: (s.lane ln).sentAt).take 16) ∧
      y.pad = (if m then 1 else pad) ∧ (y.muted = true ↔ muted) ∧ (muted → y.slots = [] ∧ y.conts = []) ∧
      (∀ f l, waiting = f :: l → ¬muted → y.slots = f.slots ∧ ∀ i, i ≠ (ringSelf s).toNat → y.conts[i]? = f.conts[i]?) ∧
      (waiting = [] → ¬muted → y.slots = List.replicate 55 emptySlot) ∧
      (g.dup = true → ¬muted → (ringSelf s).toNat < y.conts.length →
        y.conts[(ringSelf s).toNat]? = some (containerBytes
          { src := ringSelf s, dst := 0, stream := false, frag := 0, present := true, seq := 0, payload := [], barrier := 0
            waiting := false })) ∧
      (∀ f l, waiting = f :: l → g.dup = true → y.emergency = f.emergency) ∧
      (g.dup = false → estop → y.emergency = List.replicate 16 0xE5) ∧
      (g.dup = false → ¬estop → ringMaster s = true → y.emergency = List.replicate 16 (if relays then 0xE5 else 0)) ∧
      (∀ f l, waiting = f :: l → g.dup = false → ¬estop → ringMaster s = false → y.emergency = f.emergency) ∧
      t = { s with ring := t.ring, mea := t.mea }) ∧
    (¬carries ∨ (m = false ∧ waiting = []) → Leaves (.ringCycleTx ring1 inst pad) s s))

/-- Remote access over the ring (R451 to R459, R463): a request leaves and its command stays PENDING, a response to one
that has been sent completes it, a request that is not answered in time ends with E_TIMEOUT; a request received is
executed once, with its response kept, a read or a write of several words as `readWords` and `writeWords` execute it
(R455). What rests on log entries 11, 52 and 69 is this model's choice or inference. -/
def Obligations.RingRequests : Prop :=
  ∀ (s : State) (r : Req),
    let g := s.ring
    let a := bankArg s r
    let n := (a 2).toNat
    let msg (kind : Byte) (count : Byte) (data : List Word) : Msg :=
      { kind := kind, dst := (a 0).setWidth 8, src := ringSelf s, tag := (a 0 >>> 8).setWidth 8, count := count, code := a 1,
        data := data }
    let sent (op : Word) (m : Msg) : State :=
      let q := setBank s r 0 op
      setBank { q with ring := { g with
        pend := g.pend ++ [{ r := r, kind := m.kind, dst := m.dst, tag := m.tag, no := g.reqNo }]
        outQ := g.outQ ++ [(g.reqNo, m)], reqNo := g.reqNo + 1 } } r 0xA 1
    let ends (op : Word) (c : Word) : State := finishCmd (setBank s r 0 op) r c []
    let away := (a 0).setWidth 8 ≠ ringSelf s
    let reach := ringReach s ((a 0).setWidth 8) = true
    let room := g.pend.length < 8
    let asks (m : Msg) : Prop := m.kind = 1 ∨ m.kind = 2 ∨ m.kind = 3
    (commandable s r = true →
      (1 ≤ n → n ≤ 4 → away → reach → room → Leaves (.ringRd r) s (sent 0x0601 (msg 1 (BitVec.ofNat 8 n) []))) ∧
      (1 ≤ n → n ≤ 5 → away → reach → room →
        Leaves (.ringWr r) s (sent 0x0602 (msg 2 (BitVec.ofNat 8 n) ([a 3, a 4, a 5, a 6, a 7].take n)))) ∧
      (n = 0 ∨ 4 < n → Leaves (.ringRd r) s (ends 0x0601 0x0101)) ∧
      (n = 0 ∨ 5 < n → Leaves (.ringWr r) s (ends 0x0602 0x0101)) ∧
      ((a 1).toNat / 256 ≠ 6 → away → reach → room →
        Leaves (.ringCmd r) s (sent 0x0603 (msg 3 6 [a 2, a 3, a 4, a 5, a 6, a 7]))) ∧
      ((a 1).toNat / 256 = 6 ∨ ¬away → Leaves (.ringCmd r) s (ends 0x0603 0x0101)) ∧
      ((a 1).toNat / 256 ≠ 6 → away → ¬reach → Leaves (.ringCmd r) s (ends 0x0603 0x0402)) ∧
      ((a 1).toNat / 256 ≠ 6 → away → reach → ¬room → Leaves (.ringCmd r) s (ends 0x0603 0x0301))) ∧
    (∀ k p, g.pend[k]? = some p →
      let m := finishCmd { s with ring := { g with
        pend := g.pend.take k ++ g.pend.drop (k + 1), outQ := g.outQ.filter fun x => x.1 != p.no } } p.r 0x0403 []
      Leaves (.rtmo k) s (m.setReg 0x4008 (m.reg 0x4008 ||| 0x40))) ∧
    (∀ k, g.pend.length ≤ k → Leaves (.rtmo k) s s) ∧
    (g.inM = [] → Leaves .ringResponseRx s s ∧ Leaves .ringRequestRx s s) ∧
    (∀ (m : Msg) ms, g.inM = m :: ms → (asks m → Leaves .ringResponseRx s s) ∧ (¬asks m → Leaves .ringRequestRx s s)) ∧
    (∀ (m : Msg) ms, g.inM = m :: ms → ¬asks m →
      let q : State := { s with ring := { g with inM := ms } }
      let hit (p : PendReq) : Bool := p.sent && p.dst == m.src && p.tag == m.tag && p.kind + 8 == m.kind
      (∀ l p k, g.pend = l ++ p :: k → (∀ x ∈ l, hit x = false) → hit p = true →
        Leaves .ringResponseRx s (finishCmd { q with ring := { q.ring with pend := l ++ k } } p.r m.code
          (if m.kind = 0x0A then [m.count.setWidth 16]
           else if m.kind = 9 then m.data.take (min 4 m.count.toNat) else m.data.take 4))) ∧
      ((∀ x ∈ g.pend, hit x = false) → Leaves .ringResponseRx s q)) ∧
    (∀ (m : Msg) ms, g.inM = m :: ms → asks m →
      let q : State := { s with ring := { g with inM := ms } }
      let kept := mget dKept g.kept m.src.toNat
      let resp (count : Nat) (code : Word) (ws : List Word) : Msg :=
        { kind := m.kind + 8, dst := m.src, src := ringSelf s, tag := m.tag, count := BitVec.ofNat 8 count, code := code,
          data := ws }
      let put (t : State) (x : Msg) : State := { t with ring := { t.ring with outR := t.ring.outR ++ [x] } }
      let answer (t : State) (x : Msg) : State :=
        { t with ring := { t.ring with
          outR := t.ring.outR ++ [x], kept := mset dKept t.ring.kept m.src.toNat (some (m.tag, x)) } }
      let first := m.tag = 0 ∨ ∀ x, kept ≠ some (m.tag, x)
      let err (c : Word) : State := q.setReq .ring { s.req .ring with lasterr := c }
      (g.dup = true ∨ servesAccesses s = false → Leaves .ringRequestRx s q) ∧
      (admitted s .ring = true → g.dup = false →
        (∀ x, m.tag ≠ 0 → kept = some (m.tag, x) → Leaves .ringRequestRx s (put q x)) ∧
        (first → bankPending s .ring = true → Leaves .ringRequestRx s (put (err 0x0302) (resp 0 0x0302 []))) ∧
        (first → bankPending s .ring = false →
          let n := m.count.toNat
          (m.kind = 1 → 1 ≤ n → n ≤ 4 →
            let x := readWords q .ring m.code.toNat n
            Leaves .ringRequestRx s (answer x.1 (resp x.2.2.length x.2.1 x.2.2))) ∧
          (m.kind = 2 → 1 ≤ n → n ≤ 5 →
            let x := writeWords q .ring m.code.toNat ((List.range n).map fun i => m.data.getD i 0)
            Leaves .ringRequestRx s (if servesAccesses x.1 then answer x.1 (resp x.2.2 x.2.1 []) else x.1)) ∧
          ((m.kind = 1 ∧ (n = 0 ∨ 4 < n)) ∨ (m.kind = 2 ∧ (n = 0 ∨ 5 < n)) →
            Leaves .ringRequestRx s (answer (err 0x0101) (resp 0 0x0101 []))) ∧
          (m.kind = 3 → Leaves .ringRequestRx s (startCmd ((List.range 8).foldl (fun (t : State) i =>
            setBank t .ring (2 + i) (if i < 6 then m.data.getD i 0 else 0))
              { q with ring := { q.ring with job := some m } }) .ring m.code)))))

-- the floor bus (13_floor_bus.md)

/-- Beacons, slots and frames of the floor bus (R467, R469, R472 to R475, R477 to R483, R491, R494, R495), received as
characters, the port's counters and mutes (R482, R484), and the stop frame (R198, R488 to R490). What rests on log
entries 9 and 69 is this model's choice or inference. -/
def Obligations.FloorTraffic : Prop :=
  ∀ (s : State) (cs : List FloorChar) (slot : Byte) (err : Int) (r : Req),
    let u := s.unit 0x4C
    let f := s.floor
    let timed := f.timed = true ∧ (u.code = 2 ∨ u.code = 3)
    let sends := timed ∧ u.code = 2 ∧ u.fenced = false ∧ f.dup = false
    let with_ (g : Floor) : State := { s with floor := g }
    let evt (m : State) (on : Prop) [Decidable on] (w : Word) : State :=
      if on then m.setReg 0x4812 (m.reg 0x4812 ||| w) else m
    let up (n k : Nat) : Nat := min 511 (n + k)
    let self := (s.reg 0x0040).setWidth 8
    let base (t : State) : Prop := t = { s with floor := t.floor, regs := t.regs, units := t.units, fsrc := t.fsrc,
                                                occs := t.occs, fresh := t.fresh }
    let bad := floorJudge ((with_ { f with discarded := true, rx := up f.rx 8 }).setReg 0x480D
      (wd (min 65535 ((s.reg 0x480D).toNat + 1))))
    let beacon := some (FloorOut.frame (floorBeaconBytes (floorBeacon s)))
    (f.master = true → sends →
      -- an intact beacon of its own ends its holdover as any valid one does (R482)
      Leaves (.beaconTx true) s (floorJudge (evt (with_ { f with
        sentB := some (floorBeacon s), out := beacon, masterId := some self, bAge := 0, sawBeacon := true
        hold := 0, holdMute := f.holdMute && decide (96 ≤ f.tx) }) (f.masterId ≠ some self) 1)) ∧
      Leaves (.beaconTx false) s (floorJudge (with_ { f with
        sentB := some (floorBeacon s), out := beacon, ownBeaconBad := true, tx := up f.tx 8 }))) ∧
    (f.master = false ∨ ¬sends → ∀ i, Leaves (.beaconTx i) s s) ∧
    (floorBeaconOf cs = none → (u.code = 1 ∨ timed → Leaves (.beaconRx cs err) s bad) ∧
      (u.code ≠ 1 → ¬timed → Leaves (.beaconRx cs err) s s)) ∧
    (∀ b, floorBeaconOf cs = some b →
      (u.code = 1 → ∃ t, Leaves (.beaconRx cs err) s t ∧ t.floor.timed = true ∧ t.floor.cyc = b.cycle ∧
        t.floor.masterId = some b.src ∧ t.floor.hold = 0 ∧ t.floor.release = b.release ∧ t.floor.master = f.master ∧
        t.unit 0x4C = { u with code := if t.floor.mute then 3 else 2 } ∧ base t) ∧
      (timed → ∃ t, Leaves (.beaconRx cs err) s t ∧ t.floor.masterId = some b.src ∧ t.floor.sawBeacon = true ∧
        t.floor.bAge = 0 ∧ t.floor.hold = 0 ∧ t.floor.holdMute = (f.holdMute && decide (96 ≤ f.tx)) ∧
        t.floor.heard = some (b.pri, b.src) ∧ t.floor.release = (if f.master then f.release else b.release) ∧
        (f.masterId ≠ some b.src → bit (t.reg 0x4812) 0 = true) ∧
        t.floor.missRun = 0 ∧ (floorRing s = false → t.floor.cyc = b.cycle ∧
          (∃ d : Int, (d = Int.fdiv err (f.missRun + 1) ∨
              (Int.fmod err (f.missRun + 1) ≠ 0 ∧ d = Int.fdiv err (f.missRun + 1) + 1)) ∧
            t.floor.interval = (f.interval + d).toNat)) ∧
        (floorRing s = true → t.floor.cyc = f.cyc ∧ t.floor.interval = f.interval) ∧
        (floorFollows s = true → (-32768 ≤ err → err ≤ 32767 → t.reg 0x4807 = BitVec.ofInt 16 err) ∧
          t.floor.tx = (if 80 < err.natAbs then up f.tx 8 else f.tx) ∧
          (80 < err.natAbs → bit (t.reg 0x4812) 4 = true)) ∧
        (floorFollows s = false → t.floor.tx = f.tx ∧ t.reg 0x4807 = s.reg 0x4807) ∧ base t) ∧
      (u.code ≠ 1 → ¬timed → Leaves (.beaconRx cs err) s s)) ∧
    (u.code = 1 → u.fenced = false → f.mute = false → f.dup = false → floorCandidate s ≠ none →
      ∀ intact, ∃ t, Leaves (.seekTimeout intact) s t ∧ t.floor.timed = true ∧ t.floor.master = true ∧ t.floor.cyc = 0 ∧
        (intact = true → t.floor.masterId = some self ∧ t.floor.tx = f.tx ∧ t.floor.hold = 0) ∧
        (intact = false → t.floor.masterId = f.masterId ∧ t.floor.tx = up f.tx 8 ∧ t.floor.ownBeaconBad = true) ∧ t.floor.sentB = some (floorBeacon t) ∧
        t.floor.out = some (.frame (floorBeaconBytes (floorBeacon t))) ∧
        t.unit 0x4C = { u with code := if t.floor.mute then 3 else 2 } ∧ base t) ∧
    (u.code ≠ 1 ∨ u.fenced = true ∨ f.mute = true ∨ f.dup = true ∨ floorCandidate s = none → ∀ intact, Leaves (.seekTimeout intact) s s) ∧
    (sends → let z := floorFrame s
      let asks := f.outR = [] ∧ z.mgmt ≠ none
      let g : Floor := { f with
        sentF := some z, out := some (.frame (floorFrameBytes z)), rep := none, outR := f.outR.drop 1
        outQ := if asks then f.outQ.drop 1 else f.outQ
        pend := if asks then f.pend.map (fun (p : PendReq) =>
          if f.outQ.head?.map (·.1) = some p.no then { p with sent := true } else p) else f.pend
        claimed := f.claimed || z.claim
        claim := if z.claim then betterOf (floorCandidate s) f.claim else f.claim }
      z.src = self ∧ (z.alarm = true ↔ bit (s.reg 0x4810) 0 = true) ∧ (f.tx < 128 → f.rx < 128 → ∀ y, f.rep = some y →
        z.rep = y.1 ∧ z.repk = y.2) ∧ (∀ m l, f.outR = m :: l → z.mgmt = some m) ∧
      Leaves (.slotTx true) s (frameFields (with_ { g with slotIntact := true }) { z with claim := false }) ∧
      Leaves (.slotTx false) s (floorJudge (with_ { g with ownBad := true, tx := up f.tx 8 }))) ∧
    (¬sends → ∀ i, Leaves (.slotTx i) s s) ∧
    (¬timed → Leaves (.frameRx slot err cs) s s) ∧
    (timed →
      (floorFrameOf cs = none → Leaves (.frameRx slot err cs) s bad) ∧
      (∀ x, floorFrameOf cs = some x →
        (x.src ≠ slot → Leaves (.frameRx slot err cs) s bad) ∧
        (x.src = slot → 320 < err.natAbs → ∃ t, Leaves (.frameRx slot err cs) s t ∧
          t.floor.rx = up f.rx 1 ∧ t.floor.discarded = true ∧ t.reg 0x480A = slot.setWidth 16 ∧
          t.reg 0x480D = wd (min 65535 ((s.reg 0x480D).toNat + 1)) ∧ t.floor.slotIntact = (f.slotIntact || slot == self) ∧
          t.floor.age = f.age ∧ (f.disc = none → t.floor.disc = some (slot, if err < 0 then 1 else 2)) ∧ base t) ∧
        (x.src = slot → err.natAbs ≤ 320 → x.mgmt = none → ∃ t, Leaves (.frameRx slot err cs) s t ∧
          mget dAge t.floor.age slot.toNat = 0 ∧ (∀ k, k ≠ slot.toNat → mget dAge t.floor.age k = mget dAge f.age k) ∧
          mget dWait t.floor.waits slot.toNat = (if x.waiting then some x.bar else none) ∧
          t.floor.alarm = (if x.alarm then f.alarm ||| (1#256 <<< slot.toNat) else f.alarm &&& ~~~(1#256 <<< slot.toNat)) ∧
          t.floor.tx = (if x.repk ≠ 0 ∧ x.rep = self ∧ f.reported = false then up f.tx 8 else f.tx) ∧
          t.floor.slotIntact = (f.slotIntact || slot == self) ∧
          (x.claim = true → x.pri ≠ 0 → t.floor.claim = betterOf (some (x.pri, x.src)) f.claim) ∧
          t.reg 0x480C = (if 80 < err.natAbs then wd (min 65535 ((s.reg 0x480C).toNat + 1)) else s.reg 0x480C) ∧
          (80 < err.natAbs → t.reg 0x4808 = slot.setWidth 16 ∧ t.reg 0x4809 = BitVec.ofInt 16 err) ∧
          t.floor.rx = f.rx ∧ t.reg 0x480D = s.reg 0x480D ∧ base t))) ∧
    (timed → f.stopReq = true → Leaves .stopFrameTx s (with_ { f with stopReq := false, out := some .stop })) ∧
    (f.stopReq = false ∨ ¬timed → Leaves .stopFrameTx s s) ∧
    (∀ high start low, let m := s.setReg 0x4812 (s.reg 0x4812 ||| 8)
      (timed → high = true → 400 ≤ low → start + low < 1600 → Leaves (.stopRecognised high start low) s
        (if bit (s.reg 0x1601) 3 then coldStopLogged m 4 else m)) ∧
      (¬timed ∨ high = false ∨ low < 400 ∨ 1600 ≤ start + low → Leaves (.stopRecognised high start low) s s)) ∧
    (u.code = 1 ∨ u.code = 2 ∨ u.code = 3 → ∃ t, Leaves .stuck s t ∧ t.unit 0x4C = { u with code := 4 } ∧
      t.floor.timed = false ∧ t.present 5 0 = true ∧ t.floor.tx = f.tx ∧ t.floor.rx = f.rx ∧ base t) ∧
    (u.code ≠ 1 → u.code ≠ 2 → u.code ≠ 3 → Leaves .stuck s s) ∧
    (u.code = 4 → ∃ t, Leaves .stuckEnd s t ∧ t.unit 0x4C = { u with code := 1 } ∧ t.present 5 0 = false ∧
      t = { s with units := t.units, fsrc := t.fsrc }) ∧
    (u.code ≠ 4 → Leaves .stuckEnd s s) ∧
    (∀ k : Byte, f.master = true → floorWaiting s k = 0 → 100 ≤ mget dNat f.barRun k.toNat → Leaves (.floorBarrierClear k) s
      (with_ { f with release := f.release &&& ~~~(1#256 <<< k.toNat) })) ∧
    (∀ k : Byte, f.master = false ∨ floorWaiting s k ≠ 0 ∨ mget dNat f.barRun k.toNat < 100 →
      Leaves (.floorBarrierClear k) s s) ∧
    (admitted s r = true → (u.fenced = false → Leaves (.flrClr r 0) s ((s.setReg 0x480C 0).setReg 0x480D 0)) ∧
      (u.fenced = true → Leaves (.flrClr r 0) s (s.setReq r { s.req r with lasterr := 0x0401 })) ∧
      ∀ v, v ≠ 0 → Leaves (.flrClr r v) s (s.setReq r { s.req r with lasterr := 0x0101 })) ∧
    (let t := floorJudge s
      let cm := decide (256 ≤ f.tx) || (f.cntMute && decide (96 ≤ f.tx))
      t.floor = { f with cntMute := cm, mute := cm || f.holdMute } ∧
      t.present 5 1 = decide (96 ≤ f.tx ∨ 96 ≤ f.rx) ∧ t.present 5 2 = decide (128 ≤ f.tx ∨ 128 ≤ f.rx) ∧
      t.present 5 3 = t.floor.mute ∧
      t.reg 0x4812 = s.reg 0x4812 ||| (if t.floor.mute = f.mute then 0 else 0x100) ∧
      (u.code = 2 ∨ u.code = 3 → t.unit 0x4C = { u with code := if t.floor.mute then 3 else 2 }) ∧
      (u.code ≠ 2 → u.code ≠ 3 → t.unit 0x4C = u) ∧ base t)

/-- The end of a floor cycle (R470, R475, R478, R479, R482, R483, R491 to R493): the counters fall after a good cycle,
holdover counts cycles without a beacon and mutes at eight, beacon masters change, devices age and a watched one that
goes sets LOSS, and the next cycle begins. What rests on log entry 69 is this model's choice or inference. -/
def Obligations.FloorCycles : Prop :=
  ∀ (s : State),
    let u := s.unit 0x4C
    let f := s.floor
    let good := f.sawBeacon = true ∨ floorRing s = true
    let hold := if f.sawBeacon = true ∨ floorRing s = true then 0 else if f.master then f.hold else min 15 (f.hold + 1)
    let mutes := f.sawBeacon = false ∧ floorFollows s = true ∧ 8 ≤ hold ∧ f.holdMute = false
    let here (k : Nat) : Prop := k < 256 ∧ mget dAge f.age k < 16
    let me := floorCandidate s
    -- this device made the best claim of the cycle
    let best := f.claimed = true ∧ me ≠ none ∧ f.claim = me
    let wins := (best ∧ f.sawBeacon = false) ∨ f.takeOver = true
    (f.timed = true → u.code = 2 ∨ u.code = 3 → f.hold ≤ 15 → ∃ t, Leaves .floorCycleEnd s t ∧
      t.floor.cyc = (if floorRing s then BitVec.ofNat 32 (s.clock.t.toNat * 100 / 2 ^ 32) else f.cyc + 1) ∧
      t.floor.sawBeacon = false ∧ t.floor.discarded = false ∧ t.floor.reported = false ∧ t.floor.ownBad = false ∧
      t.floor.claim = none ∧ t.floor.disc = none ∧ t.floor.rep = f.disc ∧ t.floor.heard = none ∧
      t.floor.rx = (if good ∧ f.discarded = false then f.rx - 1 else f.rx) ∧
      t.floor.tx = (if good ∧ f.selfEdge = false ∧ f.reported = false ∧ f.ownBad = false ∧ f.ownBeaconBad = false
        then f.tx - 1 else f.tx) ∧
      t.floor.hold = hold ∧ (t.floor.holdMute = true ↔ f.holdMute = true ∨ mutes) ∧
      (∀ k, here k → mget dAge t.floor.age k = mget dAge f.age k + 1) ∧
      (∀ k, 256 ≤ k → mget dAge t.floor.age k = mget dAge f.age k) ∧
      (∀ k, here k → mget dAge f.age k = 15 → t.floor.alarm.getLsbD k = false ∧ mget dWait t.floor.waits k = none ∧
        (bit (s.reg (0x4840 + k / 16)) (k % 16) = true → bit (t.reg 0x4812) 2 = true)) ∧
      (wins → t.floor.master = true) ∧
      (¬wins → f.yieldNow = true ∨ f.master = false ∨ (f.ownBeaconBad = true ∧ f.badBeacons = 1) → t.floor.master = false) ∧
      (¬wins → f.yieldNow = false → f.ownBeaconBad = false → f.badBeacons = 0 → t.floor.master = f.master) ∧
      t.floor.yield = false ∧ t.floor.yieldNow = (f.yield && !f.yieldNow) ∧
      (t.floor.takeOver = true ↔ best ∧ f.sawBeacon = true ∧ f.takeOver = false ∧ betterOf me f.heard = me) ∧
      (f.ownBad = true → f.badFrames = 3 → f.dup = false → t.floor.dup = true ∧ bit (t.reg 0x4812) 7 = true ∧
        t.present 5 5 = true) ∧
      (f.dup = true → f.slotIntact = false → f.quietSlot = 15 → t.floor.dup = false ∧ t.present 5 5 = false) ∧
      t.floor.timed = true ∧ t.floor.interval = f.interval ∧
      t = { s with floor := t.floor, regs := t.regs, units := t.units, fsrc := t.fsrc, occs := t.occs }) ∧
    (f.timed = false ∨ (u.code ≠ 2 ∧ u.code ≠ 3) → Leaves .floorCycleEnd s s)

/-- Remote access over the floor bus (R497 to R500): a request leaves and its command stays PENDING, a response to one
that has been sent completes it, a request that is not answered in time ends with E_TIMEOUT, a request received is
executed with its response kept, a read or a write of several words as `readWords` and `writeWords` execute it. What
rests on log entries 11, 52 and 69 is this model's choice or inference. -/
def Obligations.FloorRequests : Prop :=
  ∀ (s : State) (r : Req),
    let f := s.floor
    let a := bankArg s r
    let n := (a 2).toNat
    let u := s.unit 0x4C
    let self := ringSelf s
    let msg (kind : Byte) (count : Byte) (data : List Word) : Msg :=
      { kind := kind, dst := (a 0).setWidth 8, src := self, tag := (a 0 >>> 8).setWidth 8, count := count, code := a 1,
        data := data }
    let sent (op : Word) (m : Msg) : State :=
      let q := setBank s r 0 op
      setBank { q with floor := { f with
        pend := f.pend ++ [{ r := r, kind := m.kind, dst := m.dst, tag := m.tag, no := f.reqNo }]
        outQ := f.outQ ++ [(f.reqNo, m)], reqNo := f.reqNo + 1 } } r 0xA 1
    let ends (op : Word) (c : Word) : State := finishCmd (setBank s r 0 op) r c []
    let away := (a 0).setWidth 8 ≠ self
    let reach := u.code = 2 ∧ floorPassive s = false ∧ floorPresent s ((a 0).setWidth 8).toNat = true
    let room := u.fenced = false ∧ f.pend.length < 4
    (commandable s r = true →
      (1 ≤ n → n ≤ 4 → away → reach → room → Leaves (.flrRd r) s (sent 0x0701 (msg 1 (BitVec.ofNat 8 n) []))) ∧
      (1 ≤ n → n ≤ 5 → away → reach → room →
        Leaves (.flrWr r) s (sent 0x0702 (msg 2 (BitVec.ofNat 8 n) ([a 3, a 4, a 5, a 6, a 7].take n)))) ∧
      (n = 0 ∨ 4 < n → Leaves (.flrRd r) s (ends 0x0701 0x0101)) ∧
      (n = 0 ∨ 5 < n → Leaves (.flrWr r) s (ends 0x0702 0x0101)) ∧
      ((a 1).toNat / 256 ≠ 7 → away → reach → room →
        Leaves (.flrCmd r) s (sent 0x0703 (msg 3 6 [a 2, a 3, a 4, a 5, a 6, a 7]))) ∧
      ((a 1).toNat / 256 = 7 ∨ ¬away → Leaves (.flrCmd r) s (ends 0x0703 0x0101)) ∧
      ((a 1).toNat / 256 ≠ 7 → away → ¬reach → Leaves (.flrCmd r) s (ends 0x0703 0x0402)) ∧
      ((a 1).toNat / 256 ≠ 7 → away → reach → u.fenced = true → Leaves (.flrCmd r) s (ends 0x0703 0x0401)) ∧
      ((a 1).toNat / 256 ≠ 7 → away → reach → u.fenced = false → 4 ≤ f.pend.length →
        Leaves (.flrCmd r) s (ends 0x0703 0x0301))) ∧
    (∀ k p, f.pend[k]? = some p →
      let m := finishCmd { s with floor := { f with
        pend := f.pend.take k ++ f.pend.drop (k + 1), outQ := f.outQ.filter fun x => x.1 != p.no } } p.r 0x0403 []
      Leaves (.flrRtmo k) s (m.setReg 0x4812 (m.reg 0x4812 ||| 0x40))) ∧
    (∀ k, f.pend.length ≤ k → Leaves (.flrRtmo k) s s) ∧
    (∀ (src : Byte) (m : Msg), m.dst = self → src ≠ self → m.kind ≠ 1 → m.kind ≠ 2 → m.kind ≠ 3 →
      let hit (p : PendReq) : Bool := p.sent && p.dst == src && p.tag == m.tag && p.kind + 8 == m.kind
      (∀ l p k, f.pend = l ++ p :: k → (∀ x ∈ l, hit x = false) → hit p = true →
        floorMsg s src m = finishCmd { s with floor := { f with pend := l ++ k } } p.r m.code
          (if m.kind = 0x0A then [m.count.setWidth 16]
           else if m.kind = 9 then m.data.take (min 4 m.count.toNat) else m.data.take 4)) ∧
      ((∀ x ∈ f.pend, hit x = false) → floorMsg s src m = s)) ∧
    (∀ (src : Byte) (m : Msg), m.dst ≠ self ∨ src = self → floorMsg s src m = s) ∧
    (∀ (slot : Byte) (err : Int) (cs : List FloorChar) (x : FloorFrame) (m : Msg), floorFrameOf cs = some x →
      f.timed = true → u.code = 2 ∨ u.code = 3 → x.src = slot → slot ≠ self → err.natAbs ≤ 80 → x.mgmt = some m →
        Leaves (.frameRx slot err cs) s (floorMsg (frameFields s x) slot m)) ∧
    (∀ (src : Byte) (m : Msg), admitted s .floor = true → m.dst = self → src ≠ self → bankPending s .floor = false →
      m.tag = 0 ∨ (∀ x, mget dKept f.kept src.toNat ≠ some (m.tag, x)) →
      let resp (count : Nat) (code : Word) (ws : List Word) : Msg :=
        { kind := m.kind + 8, dst := src, src := self, tag := m.tag, count := BitVec.ofNat 8 count, code := code, data := ws }
      let answer (t : State) (x : Msg) : State :=
        { t with floor := { t.floor with
          outR := t.floor.outR ++ [x], kept := mset dKept t.floor.kept src.toNat (some (m.tag, x)) } }
      let n := m.count.toNat
      (m.kind = 1 → 1 ≤ n → n ≤ 4 →
        let x := readWords s .floor m.code.toNat n
        floorMsg s src m = answer x.1 (resp x.2.2.length x.2.1 x.2.2)) ∧
      (m.kind = 2 → 1 ≤ n → n ≤ 5 →
        let x := writeWords s .floor m.code.toNat ((List.range n).map fun i => m.data.getD i 0)
        floorMsg s src m = if servesAccesses x.1 then answer x.1 (resp x.2.2 x.2.1 []) else x.1) ∧
      ((m.kind = 1 ∧ (n = 0 ∨ 4 < n)) ∨ (m.kind = 2 ∧ (n = 0 ∨ 5 < n)) →
        floorMsg s src m = answer (s.setReq .floor { s.req .floor with lasterr := 0x0101 }) (resp 0 0x0101 [])) ∧
      (m.kind = 3 → floorMsg s src m = startCmd ((List.range 8).foldl (fun (t : State) i =>
        setBank t .floor (2 + i) (if i < 6 then m.data.getD i 0 else 0))
          { s with floor := { f with job := some { m with src := src } } }) .floor m.code))

-- the SPI, I2C and UART ports (15_spi_ports.md; 16_i2c_and_uart.md)

/-- The SPI host's direct transfers (R541 to R543), and the SPI target (R546 to R551, R553 to R555): frame 0, commands,
frames sent, words read and applied, and the end of a transaction. What rests on log entries 4 and 64 is this model's
choice or inference. -/
def Obligations.SpiPorts : Prop :=
  ∀ (s : State) (r : Req) (v : Word) (sdi : List Bool) (rx : List Byte),
    let x := s.spt
    -- the frame that the samples of SPT_SDI spell, the most significant bit first
    let frame : BitVec 32 := BitVec.ofNat 32 (sdi.foldl (fun n b => 2 * n + b2n b) 0)
    let c := (s.reg 0x5013).toNat
    let n := if c / 256 % 4 = 0 then min rx.length (c / 1024 + 1) else 0
    let busy := bit (s.reg 0x5000) 3 = true
    let over_ := s.reg 0x5002
    -- the read mode in use, as SPH_RDUSE shows it
    let used : Word := if bit over_ 15 then over_ &&& 0x7FFF else (s.sphMode &&& 0x3FFF) ||| (if s.sphAddr4 then 0x4000 else 0)
    let left (c : Word) : State := s.setReq r { s.req r with lasterr := c }
    let on := servesAccesses s = true ∧ (s.unit 0x57).code ≠ 0xE
    let crcOk := x.crcOn = false ∨ crc8 24 (frame >>> 8).toNat = frame.setWidth 8
    let sent (t : State) (data : Word) (under hold : Bool) : Prop :=
      t.spt.prev = data ∧ (t.spt.out >>> 16).setWidth 16 = data ∧ t.spt.out.getLsbD 15 = under ∧ t.spt.out.getLsbD 14 = hold ∧
        t.spt.out.getLsbD 13 = x.werr ∧ t.spt.out.getLsbD 12 = decide (x.idx = x.count ∧ x.count ≠ 0) ∧
        (x.idx < 16 → (t.spt.out >>> 8).setWidth 4 = BitVec.ofNat 4 x.idx) ∧
        t.spt.out.setWidth 8 = (if x.crcOn then crc8 24 (t.spt.out >>> 8).toNat else 0#8)
    let idle (i : Instr) : Prop := ∃ t, Leaves i s t ∧ sent t 0 false false ∧
      t = { s.tick with spt := { x with prev := 0, out := t.spt.out, word := false } }
    let len : Nat := if c / 512 % 2 = 1 then 0 else c / 1024 + 1
    let ab : Nat := if c % 4 = 0 then 0 else c % 4 + 2
    let sph : SphCmd := { op := (s.reg 0x5010).setWidth 8, div := (s.reg 0x5001).toNat % 64, addrBytes := ab
                          addr := if ab = 0 then none else some ((s.pair 0x5011).toNat % 256 ^ ab), dummy := c / 4 % 16
                          lines := 2 ^ (c / 64 % 4), rd := if c / 256 % 2 = 1 then 0 else len
                          wr := if c / 256 % 2 = 1 then (List.range len).map (dataByte s 0x5020) else [] }
    let bad : State := (({ s with spt := { x with op := 3 } }.setReg 0x5102 (s.reg 0x5102 ||| 2))).occur 6 0x14 0
    (admitted s r = true →
      ((s.unit 0x56).fenced = false → ¬busy → Leaves (.xgo r 1) s
        { s.setReg 0x5000 (s.reg 0x5000 ||| 8) with sphCmd := some sph, sphUse := used }) ∧
      (v ≠ 1 → Leaves (.xgo r v) s (left 0x0101)) ∧ ((s.unit 0x56).fenced = true → Leaves (.xgo r 1) s (left 0x0401)) ∧
      ((s.unit 0x56).fenced = false → busy → Leaves (.xgo r 1) s (left 0x0302))) ∧
    (busy → ∃ t, Leaves (.xdone rx) s t ∧ t.reg 0x5000 = s.reg 0x5000 &&&
        (if (rx.take n).any (· != 0xFF) then 0xFFF6 else 0xFFF7) ∧
      t.reg 0x5008 = s.reg 0x5008 ||| 2 ∧
      (∀ i, i < n → (t.reg (0x5020 + i / 2) >>> (8 * (i % 2))).setWidth 8 = rx.getD i 0) ∧
      (∀ a, a ≠ 0x5000 → a ≠ 0x5008 → a < 0x5020 ∨ 0x5020 + n ≤ a → t.reg a = s.reg a) ∧ t = { s with regs := t.regs }) ∧
    (¬busy → Leaves (.xdone rx) s s) ∧
    (∀ mode3, on → x.active = false → ∃ t, Leaves (.sptCsFall mode3) s t ∧ t.spt.active = true ∧ t.spt.op = 0 ∧
      t.spt.crcOn = bit (s.reg 0x5101) 0 ∧ t.spt.zeroFill = bit (s.reg 0x5101) 1 ∧ t.spt.held = [] ∧ t.spt.ready = [] ∧
      t.spt.late = x.late ∧ (t.spt.out >>> 16).setWidth 16 = (s.req .spt).lasterr ∧
      (t.spt.out >>> 8).setWidth 8 = 0#8 ∧
      t.spt.out.setWidth 8 = (if bit (s.reg 0x5101) 0 then crc8 24 (t.spt.out >>> 8).toNat else 0#8) ∧
      t = { s.tick with spt := t.spt }) ∧
    (on → x.active = true → x.op = 0 →
      let f := frame.toNat
      let y : Spt := { x with count := f / 2 ^ 24 % 16 + 1, addr := BitVec.ofNat 16 (f / 256) }
      (∀ i ∈ [Instr.sptReadCmd sdi, .sptWriteCmd sdi],
        (crcOk → f / 2 ^ 28 = 1 → Leaves i s { s with spt := { y with op := 1 } }) ∧
        (crcOk → f / 2 ^ 28 = 2 → Leaves i s { s with spt := { y with op := 2, asked := true } }) ∧
        (crcOk → f / 2 ^ 28 ≠ 1 → f / 2 ^ 28 ≠ 2 → Leaves i s ({ s with spt := { x with op := 3 } }.setReq .spt
          { s.req .spt with lasterr := 0x0104 })) ∧
        (¬crcOk → Leaves i s bad))) ∧
    (on → x.active = true → x.op = 2 → x.idx ≠ x.count → x.idx < 16 →
      (∀ w ws, x.ready = w :: ws → ∃ t, Leaves .sptReadFrame s t ∧ sent t w false false ∧
        t = { s.tick with spt := { x with ready := ws, idx := x.idx + 1, prev := w, out := t.spt.out, word := true } }) ∧
      (x.ready = [] → ∃ t, Leaves .sptReadFrame s t ∧ sent t (if x.zeroFill then 0 else x.prev) true false ∧
        t.reg 0x5102 = s.reg 0x5102 ||| 1 ∧ t.reg 0x5104 = wd (min 65535 ((s.reg 0x5104).toNat + 1)) ∧
        t = { s.tick with spt := { x with prev := t.spt.prev, out := t.spt.out, word := false }, regs := t.regs })) ∧
    -- after COUNT words, and after what ends a transaction early, every frame is empty (R548, R551, R553)
    (on → x.active = true → x.op = 3 → x.idx ≤ x.count → x.count ≤ 16 → idle .sptReadFrame ∧ idle (.sptWriteFrame sdi)) ∧
    (on → x.active = true → x.op = 2 → x.idx = x.count → x.idx ≤ 16 → idle .sptReadFrame) ∧
    (on → x.active = true → x.op = 1 → x.idx = x.count → x.idx ≤ 16 → crcOk → idle (.sptWriteFrame sdi)) ∧
    -- what earlier transactions left comes first, in order (R17, R555)
    (∀ a ps, x.late = (a, none) :: ps → Leaves .sptWordApplied s s ∧
      Leaves .sptWordRead s (busRead { s with spt := { x with late := ps } } .spt a.toNat).1) ∧
    (x.late = [] → x.active = true → x.op = 2 → x.asked = true →
      let y := busRead s .spt ((x.addr.toNat + x.done) % 65536)
      Leaves .sptWordRead s { y.1 with spt := { x with
        ready := x.ready ++ [y.2.2], done := x.done + 1, asked := decide (x.done + 1 < x.count) } }) ∧
    (x.late = [] → x.active = false ∨ x.op ≠ 2 ∨ x.asked = false → Leaves .sptWordRead s s) ∧
    (on → x.active = true → x.op = 1 → x.idx ≠ x.count → x.idx < 16 →
      (2 ≤ x.held.length → crcOk → ∃ t, Leaves (.sptWriteFrame sdi) s t ∧ sent t 0 false true ∧
        t = { s.tick with spt := { x with prev := 0, out := t.spt.out, word := false } }) ∧
      (x.held.length < 2 → crcOk → ∃ t, Leaves (.sptWriteFrame sdi) s t ∧ sent t 0 false false ∧
        t = { s.tick with spt := { x with prev := 0, out := t.spt.out, word := false, idx := x.idx + 1
                                          held := x.held ++ [(x.addr + wd x.idx, (frame >>> 16).setWidth 16)] } }) ∧
      (¬crcOk → ∃ t, Leaves (.sptWriteFrame sdi) s t ∧ t.spt.op = 3 ∧ t.spt.held = x.held ∧
        bit (t.reg 0x5102) 1 = true ∧ t.occs = (s.occur 6 0x14 0).occs)) ∧
    (∀ p ps, x.late = [] → x.held = p :: ps →
      let m : State := { s with spt := { x with held := ps } }
      let y := busWrite m .spt p.1.toNat p.2
      (y.2 = 0 → Leaves .sptWordApplied s y.1) ∧
      (y.2 ≠ 0 → Leaves .sptWordApplied s { (m.setReq .spt { s.req .spt with lasterr := y.2 }).setReg 0x5102
        (s.reg 0x5102 ||| 8) with spt := { x with held := ps, werr := true } })) ∧
    (∀ a w ps, x.late = (a, some w) :: ps → Leaves .sptWordRead s s ∧
      let y := busWrite { s with spt := { x with late := ps } } .spt a.toNat w
      Leaves .sptWordApplied s (if y.2 = 0 then y.1 else y.1.setReg 0x5102 (y.1.reg 0x5102 ||| 8))) ∧
    (x.late = [] → x.held = [] → Leaves .sptWordApplied s s) ∧
    (∀ inside, x.active = true → ∃ t, Leaves (.sptCsRise inside) s t ∧ t.spt.active = false ∧ t.spt.held = [] ∧ t.spt.ready = [] ∧
      t.spt.late = x.late ++ x.held.map (fun p => (p.1, some p.2)) ++ (if x.asked then [(x.addr + wd x.done, none)] else []) ∧
      t.reg 0x5102 = (if x.idx < x.count ∨ (inside = true ∧ x.word = true) then s.reg 0x5102 ||| 4 else s.reg 0x5102) ∧
      t = { s with spt := t.spt, regs := t.regs }) ∧
    (∀ inside, x.active = false → Leaves (.sptCsRise inside) s s)

/-- The I2C ports (R562 to R567, R569, R571 to R574): the target's pointer, words and partial bytes, and a controller's
transfer with each of its ends, a line held low, and settings that take effect at bus-free. What rests on log entries 52
and 65 is this model's choice or inference. -/
def Obligations.I2cPorts : Prop :=
  ∀ (s : State) (r : Req) (p : I2cPort),
    let ptr := s.reg 0x5207
    let on := servesAccesses s = true ∧ portUp s .i2ca = true
    let y := s.i2ca
    -- a transaction that the host of I2C-A makes with it is on the bus
    let serves := on ∧ y.busy = true ∧ y.mine = true
    let a := i2cAddr p 0
    let x := getI2c s p
    let left (c : Word) : State := s.setReq r { s.req r with lasterr := c }
    let ctl := s.reg (a + 9)
    let xfer : I2cXfer := { addr := (s.reg (a + 8)).setWidth 7, rd := ctl.toNat / 32 % 32, recov := bit ctl 10, by_ := r
                            wr := (List.range (ctl.toNat % 32)).map (dataByte s (a + 0x10)) }
    -- transfer f of this port is on the bus
    let runs (f : I2cXfer) : Prop := x.xfer = some f ∧ x.mbusy = true ∧ (p = .b ∨ x.busy = false)
    -- a transfer ends with RESULT and NBYTES, and events
    let ends (m : State) (z : I2c) (result nbytes : Nat) (evt : Word) : State :=
      ((setI2c m p { z with mbusy := false }).setReg (a + 0xB) (wd (result + 8 * nbytes))).setReg (a + 0xC)
        (m.reg (a + 0xC) ||| evt ||| 1)
    let some_ (f : I2cXfer) (k : Fin 32) : Nat := min k.val (max f.wr.length f.rd)
    let tmo := ((x.live.getD 4 0).toNat)
    (∀ d w,
      (on → d = y.addr → Leaves (.i2caPointerSet d w) s
        { s.setReg 0x5207 w with i2ca := { y with busy := true, mine := true, wr := true, nacked := false } }) ∧
      (¬on ∨ d ≠ y.addr → Leaves (.i2caPointerSet d w) s
        { s with i2ca := { y with busy := true, mine := false, wr := false, nacked := false } })) ∧
    (∀ w, let z := busWrite (s.setReg 0x5207 (ptr + 1)) .i2ca ptr.toNat w
      (serves → y.wr = true →
        Leaves (.i2caWordWrite w) s (if z.2 = 0 then z.1 else z.1.setReg 0x520C (z.1.reg 0x520C ||| 0x10))) ∧
      (¬serves ∨ y.wr = false → Leaves (.i2caWordWrite w) s s)) ∧
    (∀ k, let z := busRead s .i2ca ptr.toNat
      (serves → y.nacked = false → Leaves (.i2caWordRead k) s { z.1.setReg 0x5207 (ptr + 1) with
        i2ca := { z.1.i2ca with wr := false, nacked := !k, sent := if z.2.1 = 0 then z.2.2 else 0 } }) ∧
      (¬serves ∨ y.nacked = true → Leaves (.i2caWordRead k) s s)) ∧
    (∀ odd stop, let m : State := { s with i2ca := { y with
        busy := !stop, mine := y.mine && !stop, wr := false, nacked := false } }
      (y.busy = false → Leaves (.i2caStopCondition odd stop) s s) ∧
      (serves → y.wr = true → odd = true → Leaves (.i2caStopCondition odd stop) s (m.setReg 0x520C (s.reg 0x520C ||| 0x20))) ∧
      (y.busy = true → ¬serves ∨ y.wr = false ∨ odd = false → Leaves (.i2caStopCondition odd stop) s m)) ∧
    (admitted s r = true → (s.unit (if p = .a then 0x58 else 0x59)).fenced = false →
      (ctl.toNat % 32 ≤ 16 → ctl.toNat / 32 % 32 ≤ 16 →
        (x.mbusy = false → p = .b ∨ bit (y.live.getD 0 0) 1 = true →
          Leaves (.mgo r p 1) s (setI2c s p { x with mbusy := true, waits := x.busy, xfer := some xfer })) ∧
        (x.mbusy = false → p = .a → bit (y.live.getD 0 0) 1 = false → Leaves (.mgo r p 1) s (left 0x0201)) ∧
        (x.mbusy = true → Leaves (.mgo r p 1) s (left 0x0302))) ∧
      ∀ v, v ≠ 1 ∨ 16 < ctl.toNat % 32 ∨ 16 < ctl.toNat / 32 % 32 → Leaves (.mgo r p v) s (left 0x0101)) ∧
    (∀ f, x.xfer = some f → runs f → f.recov = false → ∀ (k : Fin 32) (rx : List Byte),
      (rx.length = f.rd → ∃ t, Leaves (.mdone p .done k rx) s t ∧
        t.reg (a + 0xB) = wd (1 + 8 * (if f.rd = 0 then f.wr.length else f.rd)) ∧ t.reg (a + 0xC) = s.reg (a + 0xC) ||| 1 ∧
        getI2c t p = { x with mbusy := false } ∧
        (∀ i, i < f.rd → i < 16 → (t.reg (a + 0x10 + i / 2) >>> (8 * (i % 2))).setWidth 8 = rx.getD i 0) ∧
        (∀ b, b ≠ a + 0xB → b ≠ a + 0xC → b < a + 0x10 ∨ a + 0x10 + f.rd ≤ b → t.reg b = s.reg b) ∧
        t = { s with i2ca := t.i2ca, i2cb := t.i2cb, regs := t.regs }) ∧
      (rx.length ≠ f.rd → Leaves (.mdone p .done k rx) s s) ∧
      Leaves (.mdone p .nackAddr k rx) s (ends (s.setReq f.by_ { s.req f.by_ with lasterr := 0x0402 }) x 2
        (if f.rd ≠ 0 ∧ k.val = f.wr.length then f.wr.length else 0) 0) ∧
      (k.val < f.wr.length → Leaves (.mdone p .nackData k rx) s (ends s x 3 k.val 0)) ∧
      (f.wr.length ≤ k.val → Leaves (.mdone p .nackData k rx) s s) ∧
      Leaves (.arblost p k) s (ends s { x with busy := true, mine := false, wr := false } 4 (some_ f k) 2)) ∧
    (x.mbusy = false ∨ (p = .a ∧ x.busy = true) → ∀ how k rx, Leaves (.mdone p how k rx) s s ∧ Leaves (.arblost p k) s s) ∧
    (∀ f lows, x.xfer = some f → p = .b → x.mbusy = true → f.recov = true →
      Leaves (.recov lows) s (ends s { x with xfer := some { f with pulses := min lows 9 } } (if lows ≤ 9 then 1 else 6) 0 0)) ∧
    (s.i2cb.mbusy = false → ∀ n, Leaves (.recov n) s s) ∧
    (∀ (sda : Bool) (k : Fin 32),
      let low := if sda then x.sda else x.scl
      let off := if sda then tmo / 256 = 0 else tmo % 256 = 0
      let src : Nat := (if p = .a then 0x10 else 0x12) + b2n sda
      let z : I2c := { x with busy := false, mine := false, wr := false, scl := x.scl || !sda, sda := x.sda || sda }
      let m := ((setI2c s p z).setReg (a + 0xC) (s.reg (a + 0xC) ||| (if sda then 8 else 4))).condOn 6 src 0
      (servesAccesses s = true → ¬off → low = false →
        (x.mbusy = false → Leaves (.i2cLineTimeout p sda k) s m) ∧
        (∀ f, x.xfer = some f → runs f → f.recov = false → Leaves (.i2cLineTimeout p sda k) s (ends m z 5 (some_ f k) 0)) ∧
        (p = .a → x.mbusy = true → x.busy = true → Leaves (.i2cLineTimeout p sda k) s (ends m z 5 0 0))) ∧
      (servesAccesses s = false ∨ off ∨ low = true → Leaves (.i2cLineTimeout p sda k) s s)) ∧
    -- bus-free comes before a transfer that has waited for it (R562, R570)
    (p = .b ∨ x.busy = false → x.mbusy = false ∨ x.waits = true → Leaves (.i2cCfgApply p) s
      (setI2c s p { x with
        live := [s.reg (a + 1), s.reg (a + 2), s.reg (a + 3), s.reg (a + 4), s.reg (a + 5)], addr := (s.reg (a + 6)).setWidth 7
        busy := false, waits := false })) ∧
    ((x.mbusy = true ∧ x.waits = false) ∨ (p = .a ∧ x.busy = true) → Leaves (.i2cCfgApply p) s s)

/-- The UART (R578 to R580) and its console (R581 to R584): characters in and out, the FIFOs, settings that take effect,
a request executed once, and every discard. What rests on log entries 51 and 65 is this model's choice or inference. -/
def Obligations.UartAndConsole : Prop :=
  ∀ (s : State) (r : Req) (samples : List (Bool × Bool × Bool)),
    let u := s.uart
    -- each bit is what two of its three samples show
    let bits := samples.map fun x => decide (2 ≤ b2n x.1 + b2n x.2.1 + b2n x.2.2)
    let c := uartCharOf u.cfg bits
    let on := servesAccesses s = true ∧ portUp s .uart = true
    let raw := bit u.cfg 1 = true
    let evt (m : State) (w : Word) : State := m.setReg 0x5406 (m.reg 0x5406 ||| w)
    let fifo (m : State) (l : List UartChar) : State := { m with uart := { m.uart with rx := l } }
    let part (m : State) (l : List Byte) : State := { m with uart := { m.uart with part := l } }
    -- a character goes to the receive FIFO, in the newest one's place where that is full
    let stored (m : State) (c : UartChar) : State :=
      let l := m.uart.rx
      let m := evt m (wd (1 + flag c.fe 2 + flag c.pe 3 + flag c.brk 4))
      if l.length < 16 then fifo m (l ++ [c]) else evt (fifo m (l.take 15 ++ [c])) 2
    let flags := stored s c
    let left (k : Word) : State := s.setReq r { s.req r with lasterr := k }
    (∀ d, uartCharOf u.cfg ((uartBits u.cfg d).drop 1) = { data := d, fe := false, pe := false, brk := false }) ∧
    (on → raw → Leaves (.uartCharRx samples) s flags) ∧
    (on → ¬raw →
      (c.brk = true → Leaves (.uartCharRx samples) s (part flags [])) ∧
      (c.brk = false → u.part = [] → c.data ≠ 0xA5 → Leaves (.uartCharRx samples) s flags) ∧
      (c.brk = false → u.part ≠ [] ∨ c.data = 0xA5 → c.fe = true ∨ c.pe = true → Leaves (.uartCharRx samples) s (evt (part flags []) 0x40)) ∧
      (c.brk = false → c.fe = false → c.pe = false → u.part ≠ [] ∨ c.data = 0xA5 → u.part.length < 3 →
        Leaves (.uartCharRx samples) s (part flags (u.part ++ [c.data]))) ∧
      (c.brk = false → c.fe = false → c.pe = false → u.part.length = 3 →
        (u.part.getD 2 0 ≠ 1 ∧ u.part.getD 2 0 ≠ 2) ∨ c.data = 0 ∨ 16 < c.data →
        Leaves (.uartCharRx samples) s (evt (part flags []) 0x40))) ∧
    (¬on → Leaves (.uartCharRx samples) s s) ∧
    (0 < u.left → Leaves .uartCharTx s { s with uart := { u with left := u.left - 1 } }) ∧
    (∀ b l, u.left = 0 → u.tx = b :: l →
      let m : State := { s with uart := { u with tx := l, sending := !l.isEmpty } }
      Leaves .uartCharTx s (if l = [] then evt m 0x20 else m)) ∧
    (u.left = 0 → u.tx = [] → Leaves .uartCharTx s s) ∧
    (admitted s r = true →
      (∀ k l, raw → u.rx = k :: l → Leaves (.uartRxd r) s (fifo s l) ∧
        (busRead s r 0x5404).2.2 = wd (k.data.toNat + flag k.fe 8 + flag k.pe 9 + flag k.brk 10 + 0x8000)) ∧
      (¬raw ∨ u.rx = [] → Leaves (.uartRxd r) s s ∧ (busRead s r 0x5404).2.2 = 0) ∧
      (∀ v, (s.unit 0x5A).fenced = false → v < 0x100 →
        (raw → u.tx.length < 16 → Leaves (.uartTxd r v) s
          { s with uart := { u with tx := u.tx ++ [v.setWidth 8], sending := true } }) ∧
        (raw → 16 ≤ u.tx.length → Leaves (.uartTxd r v) s (left 0x0302)) ∧
        (¬raw → Leaves (.uartTxd r v) s (left 0x0201)))) ∧
    (u.sending = false → u.left = 0 → u.cfg ≠ s.reg 0x5401 ∨ u.div ≠ s.reg 0x5402 → Leaves .uartCfgApply s
      { s with uart := { u with cfg := s.reg 0x5401, div := s.reg 0x5402, rx := [], tx := [], part := [] } }) ∧
    (u.sending = true ∨ u.left ≠ 0 ∨ (u.cfg = s.reg 0x5401 ∧ u.div = s.reg 0x5402) → Leaves .uartCfgApply s s) ∧
    (u.part ≠ [] → Leaves .cto s (evt (part s []) 0x80)) ∧ (u.part = [] → Leaves .cto s s) ∧
    (∀ f : List Byte, on → ¬raw → u.part = [] → f.getD 0 0 = 0xA5 → f.getD 2 0 = 1 ∨ f.getD 2 0 = 2 →
      f.getD 3 0 ≠ 0 → f.getD 3 0 ≤ 16 →
      f.length = (if f.getD 2 0 = 1 then 8 else 8 + 2 * (f.getD 3 0).toNat) →
      let sum := crc16 ((f.drop 1).take (f.length - 3))
      let right := f.drop (f.length - 2) = [(sum >>> 8).setWidth 8, sum.setWidth 8]
      let m := f.foldl (fun m b => stored m { data := b, fe := false, pe := false, brk := false }) s
      (right → Leaves (.consoleRead f) s (consoleRun m f) ∧ Leaves (.consoleWrite f) s (consoleRun m f)) ∧
      (¬right → Leaves (.consoleRead f) s (evt m 0x40) ∧ Leaves (.consoleWrite f) s (evt m 0x40))) ∧
    (∀ f : List Byte,
      let seq := f.getD 1 0
      let n := (f.getD 3 0).toNat
      let again := seq ≠ 0 ∧ seq = u.seq ∧ u.kept ≠ []
      let a := (f.getD 4 0).toNat + 256 * (f.getD 5 0).toNat
      let sends (m : State) (l : List Byte) : State :=
        { m with uart := { m.uart with seq := seq, kept := l, resp := l, left := l.length } }
      (again → consoleRun s f = { s with uart := { u with resp := u.kept, left := u.kept.length } }) ∧
      (¬again → f.getD 2 0 = 1 →
        let x := readWords s .uart a n
        consoleRun s f = sends x.1 (consoleResponse seq x.2.1 x.2.2.length x.2.2)) ∧
      (¬again → f.getD 2 0 ≠ 1 →
        let x := writeWords s .uart a ((List.range n).map fun i => frameWord f (6 + 2 * i))
        servesAccesses x.1 = true → consoleRun s f = sends x.1 (consoleResponse seq x.2.1 x.2.2 []))) ∧
    (∀ a n v vs,
      let x := busRead s r (a % 65536)
      let y := readWords x.1 r (a + 1) n
      let z := busWrite s r (a % 65536) v
      let w := writeWords z.1 r (a + 1) vs
      (x.2.1 ≠ 0 → readWords s r a (n + 1) = (x.1, x.2.1, [])) ∧
      (x.2.1 = 0 → readWords s r a (n + 1) = (y.1, y.2.1, x.2.2 :: y.2.2)) ∧
      (z.2 ≠ 0 → writeWords s r a (v :: vs) = (z.1, z.2, 0)) ∧
      (z.2 = 0 → servesAccesses z.1 = false → writeWords s r a (v :: vs) = (z.1, 0, 1)) ∧
      (z.2 = 0 → servesAccesses z.1 = true → writeWords s r a (v :: vs) = (w.1, w.2.1, w.2.2 + 1)))

-- timers, the timebase and the real-time clock (17_timers_and_rtc.md); OTP (18_otp_and_kiln.md); proofs and scan (19_proof.md)

/-- Timers and the timebase (R588, R590, R592, R593, R595, R596, R598, R600): a tick, its events and its pin, START and
STOP with their codes, live writes that land, and the lock of the timebase. What rests on log entries 37 and 58 is this
model's choice or inference. -/
def Obligations.Timers : Prop :=
  ∀ (s : State) (r : Req) (n : Fin 8) (which : TimerWord),
    let k := 0x40 + n.val
    let a := 0x5800 + 0x10 * n.val
    let u := s.unit k
    let x := s.timer n
    let cfg := s.reg (a + 1)
    let frozen := bit cfg 8 = true ∧ (s.eng (cfg.toNat / 512 % 4)).halted = true
    let runs := x.run = true ∧ u.fenced = false ∧ u.code = 2 ∧ ¬frozen
    let left (c : Word) : State := s.setReq r { s.req r with lasterr := c }
    let act (i : Nat) : Bool := match cfg.toNat / i % 4 with
      | 1 => true
      | 2 => false
      | 3 => !x.out
      | _ => x.out
    let counts (y : Timer) (c : Word) : State :=
      let out := if bit cfg 7 then
          (if c = 0 then act 4 else if c = s.reg (a + 6) then act 16 else x.out) else x.out
      ((s.setTimer n { y with out := out, loaded := false }).setReg (a + 4) c).setReg (a + 7)
        (s.reg (a + 7) ||| wd ((if c = 0 then 1 else 0) + (if c = s.reg (a + 6) then 2 else 0)))
    let lands (q : State) (p : TimerWord × Word) : State :=
      let y := q.timer n
      (q.setTimer n { y with bufNew := y.bufNew || p.1 == .buf, loaded := y.loaded || (p.1 == .cnt && y.run) }).setReg
        (a + (match p.1 with | .cnt => 4 | .buf => 5 | .mtch => 6)) p.2
    -- every live write issued so far has landed
    let m := x.landing.foldl lands (s.setTimer n { x with landing := [] })
    (runs → x.loaded = true → Leaves (.timerTick n) s (counts x (s.reg (a + 4)))) ∧
    (runs → x.loaded = false → s.reg (a + 4) ≠ 0 → Leaves (.timerTick n) s (counts x (s.reg (a + 4) - 1))) ∧
    (runs → x.loaded = false → s.reg (a + 4) = 0 → bit cfg 1 = true → Leaves (.timerTick n) s
      ((s.setTimer n { x with run := false }).setUnit k { u with code := 1 })) ∧
    (runs → x.loaded = false → s.reg (a + 4) = 0 → bit cfg 1 = false →
      Leaves (.timerTick n) s (counts { x with bufNew := false } (s.reg (a + 5)))) ∧
    (¬runs → Leaves (.timerTick n) s s) ∧
    (admitted s r = true →
      (u.fenced = false → u.code ≠ 0 → Leaves (.start r n) s
        ((m.setTimer n { m.timer n with run := true }).setUnit k { u with code := 2 })) ∧
      (u.fenced = false → u.code = 0 → Leaves (.start r n) s (left 0x0201)) ∧
      (u.fenced = true → Leaves (.start r n) s (left 0x0401) ∧ Leaves (.stop r n) s (left 0x0401)) ∧
      (u.fenced = false → u.code = 2 → Leaves (.stop r n) s
        ((m.setTimer n { m.timer n with run := false }).setUnit k { u with code := 1 })) ∧
      (u.fenced = false → u.code ≠ 2 → Leaves (.stop r n) s m) ∧
      (∀ v, (u.fenced = false → Leaves (.registerWrite r (wd (a + 4)) v) s
          (s.setTimer n { x with landing := x.landing ++ [(.cnt, v)] })) ∧
        (u.fenced = true → Leaves (.registerWrite r (wd (a + 4)) v) s (left 0x0401)))) ∧
    (∀ l w j, x.landing = l ++ (which, w) :: j → (∀ p ∈ l, p.1 ≠ which) →
      Leaves (.timerWriteLands n which) s ((l ++ [(which, w)]).foldl lands (s.setTimer n { x with landing := j }))) ∧
    ((∀ p ∈ x.landing, p.1 ≠ which) → Leaves (.timerWriteLands n which) s s) ∧
    (bit (s.reg 0x5890) 0 = true → (∃ t, Leaves .tbLocked s t ∧ t.reg 0x5891 = 3 ∧ t.present 9 1 = false ∧
        t = { s with regs := t.regs, fsrc := t.fsrc }) ∧
      ∃ t, Leaves .tbLock s t ∧ bit (t.reg 0x5891) 0 = false ∧ t.present 9 1 = true ∧
        t.occs = (if s.present 9 1 then s.occs else (s.occur 9 1 0).occs) ∧
        t = { s with regs := t.regs, fsrc := t.fsrc, fresh := t.fresh, occs := t.occs }) ∧
    (bit (s.reg 0x5890) 0 = false → Leaves .tbLocked s s ∧ Leaves .tbLock s s)

/-- The real-time clock (R590, R602, R604 to R607, R609, R612, R613): its second and its alarms, the snapshot, the
calendar set whole or not at all, the countdown, the switch-over and back, a restart, and its crystal. Device time from
the calendar (R291, R602, R610, R614, R615): TIME_SEED waits for a whole RTC second, at which device time steps to the
calendar's seconds since 2000-01-01, with the TIME_STEP entry stamped at the time before. What rests on log entries 28,
67 and 76 is this model's choice or inference. -/
def Obligations.RealTimeClock : Prop :=
  (∀ (s : State) (r : Req),
    let c := s.rtc
    let evt (m : State) (w : Word) : State := m.setReg 0x5924 (m.reg 0x5924 ||| w)
    let day := (s.reg 0x5909).toNat / 256 % 32
    let mon := (s.reg 0x590A).toNat % 16
    let year := (s.reg 0x590A).toNat / 256 % 128
    let date := 1 ≤ day ∧ 1 ≤ mon ∧ mon ≤ 12 ∧ day ≤ monthDays year mon
    let cd := s.reg 0x5920
    let shown := (wd (c.sec + 256 * c.min), wd (c.hour + 256 * c.day), wd (c.mon + 256 * c.year))
    let left : State := s.setReg 0x5921 (s.reg 0x5921 - 1)
    (s.present 9 3 = false → Leaves .rtcOsc s (raised { s with rtc := { c with oscok := false } } 9 3)) ∧
    (s.present 9 3 = true → Leaves .rtcOsc s { s with rtc := { c with oscok := false } }) ∧
    (let m : State := { s with rtc := { nextSecond c with oscok := !s.present 9 3 } };
      let f (w : Word) (on : Bool) : Word := if on then w else 0
      ∃ t, Leaves .rtcSecond s t ∧ t.rtc = m.rtc ∧
        t.reg 0x5924 = s.reg 0x5924 ||| f 1 (alarmMatches m 0) ||| f 2 (alarmMatches m 1) ∧
        t = { m with regs := t.regs } ∧ ∀ a, a ≠ 0x5924 → t.reg a = s.reg a) ∧
    (c.sec < 60 → c.min < 60 → c.hour < 24 → 1 ≤ c.day → c.day ≤ monthDays c.year c.mon → 1 ≤ c.mon → c.mon ≤ 12 →
      c.year < 99 → calSeconds (nextSecond c) = calSeconds c + 1) ∧
    (admitted s r = true →
      (date → Leaves (.set r) s { s with rtc := { c with
        sec := (s.reg 0x5908).toNat % 64, min := (s.reg 0x5908).toNat / 256 % 64, hour := (s.reg 0x5909).toNat % 32
        day := day, mon := mon, year := year, sub := 0, valid := true } }) ∧
      (¬date → Leaves (.set r) s (s.setReq r { s.req r with lasterr := 0x0101 })) ∧
      Leaves (.rtcSubRead r) s (s.setReq r { s.req r with csnap := some shown })) ∧
    (bit cd 3 = false ∨ s.reg 0x5921 = 0 → Leaves .cd s s) ∧
    (bit cd 3 = true → 1 < s.reg 0x5921 → Leaves .cd s left) ∧
    (bit cd 3 = true → s.reg 0x5921 = 1 → bit cd 2 = false → Leaves .cd s (evt (s.setReg 0x5921 0) 4)) ∧
    (bit cd 3 = true → s.reg 0x5921 = 1 → bit cd 2 = true → Leaves .cd s (evt (s.setReg 0x5921 (s.reg 0x5922)) 4)) ∧
    (∀ mv, (c.onbat = false → mv ≤ 1690 → Leaves (.swover mv) s (evt { s with rtc := { c with lock := true, onbat := true } } 8)) ∧
      (c.onbat = true ∨ 1690 < mv → Leaves (.swover mv) s s) ∧
      (c.onbat = true → 1630 ≤ mv → Leaves (.swback mv) s (evt { s with rtc := { c with lock := false, onbat := false } } 0x10)) ∧
      (c.onbat = false ∨ mv < 1630 → Leaves (.swback mv) s s)) ∧
    (∃ t, Leaves .rtcRestart s t ∧ t.rtc = State.reset.rtc ∧ t.supply = { s.supply with revLatch := false } ∧
      (∀ a, 0x5900 ≤ a → a < 0x5A00 → t.reg a = resetValue a) ∧ (∀ a, a < 0x5900 ∨ 0x5A00 ≤ a → t.reg a = s.reg a) ∧
      t = { s with rtc := t.rtc, supply := t.supply, regs := t.regs })) ∧
  (∀ (s : State) (r : Req) (t : BitVec 64),
    let c := s.clock
    let m : State := { s with clock := { c with porSeed := c.porSeed && !s.rtc.valid, seed := [] } }
    let held := ringTimeOk s = true ∧ ringMaster s = false
    let started := logStarted s = true
    (commandable s r = true → let q := setBank s r 0 0x0B01
      (s.rtc.valid = true → s.rtc.lock = false → ¬held →
        Leaves (.timeSeed r) s (setBank { q with clock := { c with seed := c.seed ++ [r] } } r 0xA 1)) ∧
      (s.rtc.valid = false ∨ held → Leaves (.timeSeed r) s (finishCmd q r 0x0201 []))) ∧
    -- with RTC_ST.LOCK 1 the accesses that R610 rejects are those of the RTC's own block
    (mayAccess s r = true → s.boot.phase ≠ .load → proofRun s = 0 → reqFenced s r = false → bankPending s r = false →
      (s.req r).last ≠ some (mget dZero (s.req r).bank 1) → s.rtc.lock = true →
      Leaves (.timeSeed r) s (finishCmd (setBank s r 0 0x0B01) r 0x0201 [])) ∧
    (started → (c.porSeed = true ∧ s.rtc.valid = true) ∨ c.seed ≠ [] → Leaves .deviceTimeSeed s
      (c.seed.foldl (fun (x : State) (k : Req) => finishCmd x k 0 [])
        (timeStep m (BitVec.ofNat 64 (calSeconds s.rtc * 2 ^ 32))))) ∧
    (¬started ∨ ((c.porSeed = false ∨ s.rtc.valid = false) ∧ c.seed = []) → Leaves .deviceTimeSeed s s) ∧
    timeStep s t = forgetMarkers
      { logPut s 9 false (timeWords c.t ++ timeWords t) with clock := { c with t := t, frac := 0, slew := 0 } } ∧
    calSeconds { s.rtc with sec := 0, min := 0, hour := 0, day := 1, mon := 1, year := 0 } = 0)

/-- OTP operations (R616, R617, R622 to R626, R628, R630, R634): who may use them and when, which code each of the
others gets, what a kiln burns and reports, and what the margin reads and the scan show. What rests on log entries 53
and 68 is this model's choice or inference. -/
def Obligations.OtpOperations : Prop :=
  ∀ (s : State) (r : Req),
    let a := bankArg s r
    let w := (a 0).toNat
    let o := s.otp
    let low (c : Map Word) : Word := mget dZero c w
    let admits := r = .spt ∨ r = .i2ca ∨ r = .uart
    let ends (op : Word) (c : Word) (rs : List Word) : State := finishCmd (setBank s r 0 op) r c rs
    let lockBit : Nat := if w < 0x40 then 0 else if w < 0x60 then 1 else if w < 0x68 then 0 else if w < 0x70 then 2
      else if w < 0x88 then 0 else if w < 0xFF then 3 else 6
    let locked := bit (s.reg 0x6001) 6 = true ∨ bit (s.reg 0x6001) lockBit = true
    let fits := w ≤ 0xFF ∧ a 1 ≠ 0 ∧ a 2 = 0x6B1E ∧ (w = 0xFF → a 1 &&& 0xFF80 = 0)
    let warm := s.supply.vsysOk = true ∧ s.present 2 1 = false ∧ 0 ≤ s.supply.dieC ∧ s.supply.dieC ≤ 85
    (commandable s r = true →
      (admits → o.kiln = none → fits → ¬locked → warm → Leaves (.kiln r) s (setBank
        { setBank s r 0 0x0901 with otp := { o with kiln := some { r := some r, word := w, bits := a 1 } } } r 0xA 1)) ∧
      (fits → locked → Leaves (.kiln r) s (ends 0x0901 0x0501 [])) ∧
      (fits → ¬locked → ¬admits → Leaves (.kiln r) s (ends 0x0901 0x0204 [])) ∧
      (fits → ¬locked → admits → o.kiln ≠ none → Leaves (.kiln r) s (ends 0x0901 0x0302 [])) ∧
      (fits → ¬locked → admits → o.kiln = none → ¬warm → Leaves (.kiln r) s (ends 0x0901 0x0201 [])) ∧
      (admits → o.kiln = none → w ≤ 0xFF →
        (a 1 = 1 → Leaves (.otpMread r) s (ends 0x0902 0 [low o.lowA, low o.lowB, low o.lowA ||| low o.lowB])) ∧
        (a 1 = 2 → Leaves (.otpMread r) s (ends 0x0902 0 [low o.highA, low o.highB, low o.highA ||| low o.highB])) ∧
        (a 1 = 0 → ∃ x y t, Leaves (.otpMread r) s (finishCmd t r 0 [x, y, x ||| y]) ∧
          low o.highA &&& ~~~x = 0 ∧ low o.highB &&& ~~~y = 0 ∧ x &&& ~~~(low o.lowA ||| low o.highA) = 0 ∧
          y &&& ~~~(low o.lowB ||| low o.highB) = 0 ∧ t = { setBank s r 0 0x0902 with fresh := t.fresh })) ∧
      (0xFF < w ∨ 2 < a 1 → Leaves (.otpMread r) s (ends 0x0902 0x0101 [])) ∧
      (admits → o.kiln = none → ∃ t x, Leaves (.otpScan r) s (finishCmd t r 0
          [wd ((List.range 256).filter fun k => mget dZero o.lowA k != mget dZero o.highA k ||
              mget dZero o.lowB k != mget dZero o.highB k).length,
            (match ((List.range 256).filter fun k => mget dZero o.lowA k != mget dZero o.highA k ||
              mget dZero o.lowB k != mget dZero o.highB k) with
              | k :: _ => wd k
              | [] => 0xFFFF), x]) ∧
        t = { setBank s r 0 0x0903 with fresh := t.fresh, regs := t.regs } ∧ t.reg 0x6004 = s.reg 0x6004 ||| 1) ∧
      (¬admits → Leaves (.otpScan r) s (ends 0x0903 0x0204 []) ∧
        (w ≤ 0xFF → a 1 ≤ 2 → Leaves (.otpMread r) s (ends 0x0902 0x0204 []))) ∧
      (admits → o.kiln ≠ none → Leaves (.otpScan r) s (ends 0x0903 0x0302 []) ∧
        (w ≤ 0xFF → a 1 ≤ 2 → Leaves (.otpMread r) s (ends 0x0902 0x0302 [])))) ∧
    -- while a proof runs it holds the block (R38, R634)
    (mayAccess s r = true → s.boot.phase ≠ .load → proofRun s ≠ 0 → reqFenced s r = false → bankPending s r = false →
      (s.req r).last ≠ some (mget dZero (s.req r).bank 1) →
      (fits → ¬locked → Leaves (.kiln r) s (ends 0x0901 0x0601 [])) ∧
      (w ≤ 0xFF → a 1 ≤ 2 → Leaves (.otpMread r) s (ends 0x0902 0x0601 [])) ∧
      Leaves (.otpScan r) s (ends 0x0903 0x0601 [])) ∧
    (∀ (k : Kiln) (weakA weakB missA missB : Word), o.kiln = some k → k.r = some r →
      let has (c : Map Word) : Word := mget dZero c k.word
      let hiA := has o.highA ||| (k.bits &&& ~~~missA &&& ~~~weakA)
      let hiB := has o.highB ||| (k.bits &&& ~~~missB &&& ~~~weakB)
      let good := k.bits &&& ~~~hiA = 0 ∧ k.bits &&& ~~~hiB = 0
      (k.ended = false → ∃ t v, Leaves (.kilnDone weakA weakB missA missB none) s (finishCmd t r (if good then 0 else 0x0502)
          [k.bits &&& ~~~hiA, k.bits &&& ~~~hiB, v]) ∧
        mget dZero t.otp.lowA k.word = has o.lowA ||| (k.bits &&& ~~~missA) ∧ mget dZero t.otp.highA k.word = hiA ∧
        mget dZero t.otp.lowB k.word = has o.lowB ||| (k.bits &&& ~~~missB) ∧ mget dZero t.otp.highB k.word = hiB ∧
        mget dZero t.otp.shown k.word = v ∧ (hiA ||| hiB) &&& ~~~v = 0 ∧ t.otp.kiln = none ∧ t.otp.sensed = o.sensed ∧
        (∀ j, j ≠ k.word → mget dZero t.otp.shown j = mget dZero o.shown j ∧
          mget dZero t.otp.highA j = mget dZero o.highA j ∧ mget dZero t.otp.highB j = mget dZero o.highB j) ∧
        t.reg 0x6001 = (if k.word = 0xFF then s.reg 0x6001 ||| (v &&& 0x007F) else s.reg 0x6001) ∧
        t.reg 0x6004 = s.reg 0x6004 ||| (if good then 1 else 3)) ∧
      (∀ i : Fin 33, k.ended = true → ∃ t v, Leaves (.kilnDone weakA weakB missA missB (some i)) s (finishCmd t r 0x0201
          [k.bits &&& ~~~pulsed k.bits (min i.val ((List.range 16).filter fun j => bit k.bits j).length),
           k.bits &&& ~~~pulsed k.bits (i.val - ((List.range 16).filter fun j => bit k.bits j).length), v]) ∧
        t.otp.kiln = none ∧ t.reg 0x6004 = s.reg 0x6004 ||| 3) ∧
      (∀ i, k.ended ≠ Option.isSome i → Leaves (.kilnDone weakA weakB missA missB i) s s)) ∧
    (o.kiln = none → ∀ x y z k i, Leaves (.kilnDone x y z k i) s s)

/-- Proofs and the test access port (R348, R632, R633, R635, R637 to R639, R641 to R646): a proof starts where it may,
ends by its result, its time limit or an abort, and leaves recipe SRAM at 0 after a memory proof; the scan instructions,
the capture of the balls' levels, with an open-drain ball never driven high (R74, log entry 46); and an access to the
DBG block over ENGDBG. What rests on log entries 39, 45, 46, 47 and 53 is this model's choice or inference. -/
def Obligations.ProofsAndScan : Prop :=
  ∀ (s : State) (r : Req),
    let a := bankArg s r
    let admits := r = .spt ∨ r = .i2ca ∨ r = .uart
    let st := (s.reg 0x6800).toNat
    let run := st % 4
    let free := ∀ n, n < 4 → (s.unit (0x38 + n)).code = 0 ∨ (s.unit (0x38 + n)).fenced = true
    let memBad := a 0 = 1 ∧ poolFree s < 1024
    let logBad := a 0 = 2 ∧ ((∃ n, n < 8 ∧ bit (s.reg (0x3000 + 4 * n)) 0 = true) ∨ bit (s.reg 0x5000) 3 = true)
    let ended (m : State) (result flags entry : Nat) : State :=
      let t := (m.setReg 0x6800 (wd (4 * run + 16 * result + flags + 256 * entry))).setReg 0x6807 (m.reg 0x6807 ||| 1)
      if run = 1 then { t with sram := [] } else t
    let ends (op : Word) (c : Word) : State := finishCmd (setBank s r 0 op) r c []
    let entry := [0, 1, 2, 3].find? fun e => mget dZero s.otp.shown (0x70 + 6 * e) == 0x00B0
    (commandable s r = true →
      ((a 0 = 1 ∨ a 0 = 2) → a 1 = 0x7E57 →
        (admits → s.otp.kiln = none → free → ¬memBad → ¬logBad → Leaves (.proofRun r) s
          (finishCmd ((setBank s r 0 0x0A01).setReg 0x6800 ((s.reg 0x6800 &&& 0xFFFC) ||| a 0)) r 0 [])) ∧
        (¬admits → Leaves (.proofRun r) s (ends 0x0A01 0x0204)) ∧
        (admits → s.otp.kiln ≠ none → Leaves (.proofRun r) s (ends 0x0A01 0x0302)) ∧
        (admits → s.otp.kiln = none → ¬free ∨ memBad ∨ logBad → Leaves (.proofRun r) s (ends 0x0A01 0x0201))) ∧
      ((a 0 ≠ 1 ∧ a 0 ≠ 2) ∨ a 1 ≠ 0x7E57 → Leaves (.proofRun r) s (ends 0x0A01 0x0101)) ∧
      (admits → Leaves (.proofAbort r) s (ends 0x0A02 0x0201))) ∧
    (mayAccess s r = true → s.boot.phase ≠ .load → run ≠ 0 → reqFenced s r = false → bankPending s r = false →
      (s.req r).last ≠ some (mget dZero (s.req r).bank 1) → admits →
      Leaves (.proofAbort r) s (finishCmd (ended (setBank s r 0 0x0A02) 0 0x40 0) r 0 [])) ∧
    (∀ (sig : BitVec 32) (x y : Bool), run ≠ 0 → ∃ t, Leaves (.proofDone sig x y) s t ∧
      (let bad := run = 1 ∧ (x = true ∨ y = true)
        let ref (e : Nat) : BitVec 32 := mget dZero s.otp.shown (0x70 + 6 * e + (if run = 1 then 2 else 4)) ++
          mget dZero s.otp.shown (0x70 + 6 * e + (if run = 1 then 1 else 3))
        (entry = none → ¬bad → t.reg 0x6800 = wd (4 * run + 16 * 3)) ∧
        (bad → t.reg 0x6800 = wd (4 * run + 16 * 2 + 256 * entry.getD 0)) ∧
        (∀ e, entry = some e → ¬bad →
          t.reg 0x6800 = wd (4 * run + 16 * (if sig = ref e then 1 else 2) + 256 * e) ∧ t.pair 0x6804 = ref e)) ∧
      t.pair 0x6802 = sig ∧ (run = 1 → t.reg 0x6801 = wd (b2n x + 2 * b2n y)) ∧ t.reg 0x6807 = s.reg 0x6807 ||| 1 ∧
      t.sram = (if run = 1 then [] else s.sram) ∧ t = { s with regs := t.regs, sram := t.sram }) ∧
    (run ≠ 0 → Leaves .proofTimeout s (ended s 2 0x80 0)) ∧
    (run = 0 → Leaves .proofTimeout s s ∧ ∀ g x y, Leaves (.proofDone g x y) s s) ∧
    (∀ cells : List Bool,
      let permitted := s.boot.phase = .ready ∧ allRailsOff s = true ∧ bit (s.reg 0x6001) 5 = false
      -- the boundary register captures the balls, and is then loaded
      let scanned (code : BitVec 4) (selects : Prop) [Decidable selects] : State :=
        let m : State := { s with jtag := { s.jtag with ir := code } }
        if selects ∧ cells.length = boundary.length then { m with
          fresh := s.fresh + boundary.length
          jtag := { m.jtag with cells := cells, capt := boundary.zipIdx.map fun p => cellCaptures m p.2 p.1 } } else m
      Leaves (.extest cells) s (scanned 0 permitted) ∧ Leaves (.samplePreload cells) s (scanned 1 (bit (s.reg 0x6001) 5 = false))) ∧
    (∀ p ∈ boundary.zipIdx, p.1.2 ≠ .control → extestActs s = false → ∀ l, ballSees s p.1.1 = some l →
      cellCaptures s p.2 p.1 = l) ∧
    (∀ p ∈ boundary, p.1.openDrain = true → extestBall s p.1 ≠ some true) ∧
    (∀ p ∈ boundary, s.boot.phase ≠ .supply → (p.1 = .stopN → ballSees s p.1 = some (!(s.stopN.drv || s.stopN.low))) ∧
      (p.1 = .errN → ballSees s p.1 = some (!(s.errN.drv || s.errN.low)))) ∧
    Leaves .highz s { s with jtag := { s.jtag with ir := 2 } } ∧
    (∀ code : BitVec 4, code ≠ 0 → code ≠ 1 → code ≠ 2 → code ≠ 8 →
      Leaves (.bypass (some code)) s { s with jtag := { s.jtag with ir := 0xF } }) ∧
    (∀ code : BitVec 4, code = 0 ∨ code = 1 ∨ code = 2 ∨ code = 8 → Leaves (.bypass (some code)) s s) ∧
    Leaves (.bypass none) s { s with jtag := { s.jtag with ir := 0xF } } ∧
    (∀ (write : Bool) (addr v : Word),
      let d : BitVec 34 := ((1#1 ++ BitVec.ofBool write) ++ (addr ++ v)).setWidth 34
      let m : State := { s with jtag := { s.jtag with ir := 8 } }
      let shown (t : State) (err : Bool) (w : Word) : State :=
        { t with jtag := { t.jtag with dr := ((1#1 ++ BitVec.ofBool err) ++ (addr ++ w)).setWidth 34 } }
      let ready := servesAccesses s = true ∧ s.jtag.dr.getLsbD 33 = true
      (ready → addr < 0x2400 ∨ 0x2800 ≤ addr → Leaves (.engdbg d) s (shown m true 0x0101)) ∧
      (ready → 0x2400 ≤ addr → addr < 0x2800 →
        (write = true → writeCode s (.engine 0) addr.toNat v = 0 →
          Leaves (.engdbg d) s (shown (applyWrite m (.engine 0) addr.toNat v) false v)) ∧
        (write = true → writeCode s (.engine 0) addr.toNat v ≠ 0 →
          Leaves (.engdbg d) s (shown m true (writeCode s (.engine 0) addr.toNat v))) ∧
        (write = false → readCode s (.engine 0) addr.toNat = 0 →
          Leaves (.engdbg d) s (shown m false (view s (.engine 0) addr.toNat)))) ∧
      (servesAccesses s = true → s.boot.phase ≠ .load → 0x2400 ≤ addr → addr < 0x2800 → bit (s.reg 0x6001) 4 = true →
        writeCode s (.engine 0) addr.toNat v = 0x0501)) ∧
    (∀ d : BitVec 34, d.getLsbD 33 = false ∨ s.jtag.dr.getLsbD 33 = false ∨ servesAccesses s = false →
      Leaves (.engdbg d) s { s with jtag := { s.jtag with ir := 8 } })

-- the block as a whole

/-- The command at the front of the queue is the one that a step runs, with the queue's rest. -/
def Obligations.StepRunsFront : Prop :=
  ∀ (c : Instr) (s : State), step { s with pending := c :: s.pending } = exec c s

/-- No state has a step that ends in a fault or a refusal, and so no run does: every command has an effect, or leaves
the block as it is. What rests on log entries 1 and 2 is this model's choice or inference. -/
def Obligations.EveryStepCompletes : Prop :=
  (∀ s, Safe s) ∧ ∀ (c : Instr) (s : State), ∃ m, Leaves c s m

/-- With no command waiting a step is one timebase cycle (the model's choice, log entry 1): device time advances by 1/25
000 000 s and by a part of the slew that is still to apply, at most 100 ppm of the cycle; the levels and voltages that
no command reports are found as they may be, a current limit of a rail comes nearer to its end, a kiln whose conditions
fail is to end, the floor port follows ring time, the period of each converter that runs goes on by its RATE, and at its
boundary a change takes effect: the blocks of its taps close and their next samples carry GAP. Nothing else changes;
before POR_RELEASE nothing does (R123, R148, R149, R157, R186, R382, R387, R406, R445, R470, R591, R626, R683, R687).
What rests on log entry 1 is this model's choice or inference. -/
def Obligations.IdleCycle : Prop :=
  ∀ (s : State), s.pending = [] →
    (s.boot.phase = .supply → step s = .next s) ∧
    (s.boot.phase ≠ .supply → ∃ m t, step s = .next m ∧ Follows t m ∧
      t = { s with
        clock := t.clock, fresh := t.fresh, rails := t.rails, ldos := t.ldos, regs := t.regs, gpioIn := t.gpioIn
        stopN := { s.stopN with low := t.stopN.low }, rtc := { s.rtc with sub := t.rtc.sub }
        supply := { s.supply with dieC := t.supply.dieC }, otp := { s.otp with kiln := t.otp.kiln }
        mea := { s.mea with taps := t.mea.taps, colq := t.mea.colq, heldR := t.mea.heldR, heldS := t.mea.heldS
                            convs := t.mea.convs }
        floor := { s.floor with cyc := t.floor.cyc, hold := t.floor.hold }, snap := none } ∧
      (∀ n, n < 16 → t.rail n = { s.rail n with
          pg := (t.rail n).pg, ilim := (s.rail n).ilim - 8, fltn := (t.rail n).fltn } ∧
        ((t.rail n).pg = true → 2 ≤ (s.unit n).code ∧ (s.unit n).code ≤ 5)) ∧
      (∀ n, n < 8 → t.ldo n = { s.ldo n with pg := (t.ldo n).pg, ilim := (t.ldo n).ilim } ∧
        ((s.unit (16 + n)).code ≠ 4 → (t.ldo n).pg = (s.ldo n).pg) ∧
        ((t.ldo n).ilim = true → (s.unit (16 + n)).code = 2 ∨ (s.unit (16 + n)).code = 4 ∨ (s.unit (16 + n)).code = 6) ∧
        t.reg (0x1405 + 0x20 * n) = s.reg (0x1405 + 0x20 * n) |||
          (if (t.ldo n).pg = (s.ldo n).pg then 0 else if (t.ldo n).pg = true then 1 else 2)) ∧
      (∀ a, (∀ n, n < 8 → a ≠ 0x1405 + 0x20 * n) → a ≠ 0x3023 → t.reg a = s.reg a) ∧
      t.reg 0x3023 = s.reg 0x3023 ||| (t.reg 0x3023 &&& 5) ∧
      (∀ c, c < 8 →
        ((s.unit (uMc c)).code ≠ 2 → t.conv c = s.conv c) ∧
        ((s.unit (uMc c)).fenced = true → t.conv c = s.conv c) ∧
        ((s.unit (uMc c)).code = 2 → (s.unit (uMc c)).fenced = false →
          (s.conv c).acc + (s.conv c).rate.toNat < periodAcc ∨ convMoved s c = false →
          t.conv c = { s.conv c with acc := ((s.conv c).acc + (s.conv c).rate.toNat) % periodAcc }) ∧
        ((s.unit (uMc c)).code = 2 → (s.unit (uMc c)).fenced = false →
          periodAcc ≤ (s.conv c).acc + (s.conv c).rate.toNat → convMoved s c = true →
          t.conv c = (convTake s c).conv c ∧ (Canonical s → ∀ i x, s.tap i = some x → x.conv = c →
            t.tap i = (gapTap (closeBlock s i) i).tap i))) ∧
      (Canonical s → ∀ i x, s.tap i = some x → ((s.unit (uMc x.conv)).code = 2 → (s.unit (uMc x.conv)).fenced = false →
          x.conv < 8 → (s.conv x.conv).acc + (s.conv x.conv).rate.toNat < periodAcc ∨ convMoved s x.conv = false) →
        t.tap i = some x) ∧
      ((∀ c, c < 8 → (s.unit (uMc c)).code = 2 → (s.unit (uMc c)).fenced = false →
          (s.conv c).acc + (s.conv c).rate.toNat < periodAcc ∨ convMoved s c = false) →
        t.mea = { s.mea with convs := t.mea.convs } ∧ t.reg 0x3023 = s.reg 0x3023) ∧
      (t.stopN.low = true → s.stopN.low = true) ∧
      t.otp.kiln = s.otp.kiln.map (fun (k : Kiln) => { k with ended := k.ended || !(s.supply.vsysOk && !s.present 2 1 &&
        decide (0 ≤ t.supply.dieC ∧ t.supply.dieC ≤ 85)) }) ∧
      t.floor = (floorSync t).floor ∧ (floorRing t = false → t.floor = s.floor) ∧
      t.clock = { s.clock with t := t.clock.t, frac := t.clock.frac, slew := t.clock.slew } ∧
      Int.emod ((t.clock.t.toNat : Int) * 390625 + t.clock.frac) (2 ^ 64 * 390625) =
        Int.emod ((s.clock.t.toNat : Int) * 390625 + s.clock.frac + 67108864 + (s.clock.slew - t.clock.slew))
          (2 ^ 64 * 390625) ∧
      (s.clock.slew - t.clock.slew).natAbs ≤ 6710 ∧ t.clock.slew.natAbs ≤ s.clock.slew.natAbs ∧
      (0 ≤ s.clock.slew → 0 ≤ t.clock.slew) ∧ (s.clock.slew ≤ 0 → t.clock.slew ≤ 0) ∧ t.clock.frac < 390625)

/-- Every step keeps the canonical form: each sparse map that holds registers, a memory or the state of units lists its
keys in rising order and no default value, and the draught is in ascending address order, holds staged fields only, and
at most 512 entries (R265, R268, R271). -/
def Obligations.CanonicalKept : Prop :=
  ∀ (s t : State), Canonical s → step s = .next t → Canonical t

/-- What is encoded is decoded again, with every field at every value the encoding admits: an engine's words, in both
directions (R308, R309, R311); a ring beacon, a telemetry container and a management slot (R427 to R429, R452); the
frames of the floor bus (R472, R473); a request of a load command port (R205, R207). What rests on log entry 9 is this
model's choice or inference. -/
def Obligations.EncodingsRoundTrip : Prop :=
  (∀ (i : Instr) (e : Fin 4) (w w2 : Word) (l : List Word), engineOf i = some e → encodeEng i = some (w :: l) →
    decodeEng e w (l.headD w2) = i ∧ l.length = (if twoWords w then 1 else 0)) ∧
  (∀ (e : Fin 4) (w w2 : Word) (i : Instr), decodeWords e w w2 = some i →
    engineOf i = some e ∧ encodeEng i = some (if twoWords w then [w, w2] else [w])) ∧
  (∀ b : Beacon, beaconOf (beaconBytes b) = some b ∧ (beaconBytes b).length = 64) ∧
  (∀ c : Container, c.payload.length = (if c.stream then 16 else 0) →
    containerOf (containerBytes c) = some c ∧ (containerBytes c).length = 40) ∧
  (∀ m : Msg, slotKind m.kind = true → m.data.length = 6 →
    crcGood (slotBytes m) = true ∧ slotMsg (slotBytes m) = some m ∧ (slotBytes m).length = 46) ∧
  (∀ cs : List FloorChar, (∀ c ∈ cs, c.stop = true ∧ c.gap ≤ 8) →
    (∀ b, cs.map (·.data) = floorBeaconBytes b → floorBeaconOf cs = some b ∧ cs.length = 40) ∧
    (∀ f, (∀ m, f.mgmt = some m → m.src = f.src ∧ m.data.length = 7) → cs.map (·.data) = floorFrameBytes f →
      floorFrameOf cs = some f ∧ cs.length = if f.mgmt.isSome then 27 else 7)) ∧
  (∀ (slot cmd : Nat) (tag : BitVec 2) (value : Word), slot < 4 → cmd < 16 →
    (lcpEncode slot cmd tag value).take 8 = bitsOf 8 0x5A ∧
    lcpDecode ((lcpEncode slot cmd tag value).drop 8) =
      { slot := slot, cmd := cmd, tag := tag, value := value, crcOk := true })

/-- The state at reset: it has the canonical form; every register holds the value of the register index; every unit is
OFF with GEN 0 and owned by management; recipe SRAM and the sequence table read 0x0000; the draught, the log and the
queue are empty; device time is 0 and the start waits for its supply (R25, R26, R270, R591, R670). What rests on log
entry 3 is this model's choice or inference. -/
def Obligations.ResetState : Prop :=
  Canonical State.reset ∧ (∀ a, State.reset.reg a = resetValue a) ∧
  (∀ n, State.reset.unit n = { code := 0, owner := .management, oidx := 0, fenced := false, busy := false, gen := 0, src := 0 }) ∧
  (∀ a, State.reset.sramAt a = 0) ∧ (∀ a, mget dZero State.reset.seqTab a = 0) ∧ State.reset.pending = [] ∧
  State.reset.draught = [] ∧ State.reset.holders = [] ∧ State.reset.log = [] ∧ State.reset.commitNo = 0 ∧
  State.reset.clock.t = 0 ∧ State.reset.boot.phase = .supply ∧ State.reset.unack = 0 ∧
  (∀ r, State.reset.req r = {}) ∧
  resetValue 0x0000 = 0x9128 ∧ resetValue 0x0001 = 0x00B0 ∧ resetValue 0x1D40 = 0x03FE ∧ resetValue 0x4003 = 0x03E8
end

