-- ==== Sys2Proof/Laws/Maps.lean ====
section
/-! SUPPORT. Sparse maps: reading after writing, writing twice, and the canonical form that every write keeps. -/

namespace Sys2Proof.Machine

variable {α : Type}

theorem mget_filter_ne (d : Nat → α) (m : Map α) (k j : Nat) (h : j ≠ k) :
    mget d (m.filter fun p => p.1 != k) j = mget d m j := by
  induction m with
  | nil => rfl
  | cons p m ih =>
    obtain ⟨a, x⟩ := p
    by_cases hk : a = k
    · subst hk; simp [mget, h, ih]
    · by_cases hj : j = a <;> simp [mget, hk, hj, ih]

theorem mget_filter_self (d : Nat → α) (m : Map α) (k : Nat) :
    mget d (m.filter fun p => p.1 != k) k = d k := by
  induction m with
  | nil => rfl
  | cons p m ih =>
    obtain ⟨a, x⟩ := p
    by_cases hk : a = k
    · subst hk; simpa [mget] using ih
    · have : ¬k = a := fun e => hk e.symm
      simpa [mget, hk, this] using ih

theorem mget_mput_self (d : Nat → α) (k : Nat) (v : α) (m : Map α) (h : ∀ p ∈ m, p.1 ≠ k) :
    mget d (mput k v m) k = v := by
  induction m with
  | nil => simp [mput, mget]
  | cons p m ih =>
    obtain ⟨a, x⟩ := p
    have ha : ¬k = a := fun e => h (a, x) (by simp) e.symm
    by_cases hl : k < a
    · simp [mput, mget, hl]
    · simp only [mput, hl, if_false, mget, ha]
      exact ih fun p hp => h p (by simp [hp])

theorem mget_mput_ne (d : Nat → α) (k j : Nat) (v : α) (m : Map α) (h : j ≠ k) :
    mget d (mput k v m) j = mget d m j := by
  induction m with
  | nil => simp [mput, mget, h]
  | cons p m ih =>
    obtain ⟨a, x⟩ := p
    by_cases hl : k < a
    · simp [mput, mget, hl, h]
    · by_cases hj : j = a <;> simp [mput, mget, hl, hj, ih]

/-- A read after a write to the same key gives the value written. -/
@[simp] theorem mget_mset_self [DecidableEq α] (d : Nat → α) (m : Map α) (k : Nat) (v : α) :
    mget d (mset d m k v) k = v := by
  unfold mset
  split
  · next h => rw [mget_filter_self, h]
  · exact mget_mput_self d k v _ (by simp)

/-- A write leaves every other key alone. -/
theorem mget_mset_ne [DecidableEq α] (d : Nat → α) (m : Map α) (k j : Nat) (v : α) (h : j ≠ k) :
    mget d (mset d m k v) j = mget d m j := by
  unfold mset
  split
  · exact mget_filter_ne d m k j h
  · rw [mget_mput_ne d k j v _ h, mget_filter_ne d m k j h]

/-- A read of any key after a write. -/
theorem mget_mset [DecidableEq α] (d : Nat → α) (m : Map α) (k j : Nat) (v : α) :
    mget d (mset d m k v) j = if j = k then v else mget d m j := by
  split
  · next h => subst h; simp
  · next h => exact mget_mset_ne d m k j v h

theorem mput_filter (k : Nat) (v : α) (m : Map α) (h : ∀ p ∈ m, p.1 ≠ k) :
    (mput k v m).filter (fun p => p.1 != k) = m := by
  induction m with
  | nil => simp [mput]
  | cons p m ih =>
    obtain ⟨a, x⟩ := p
    have ha : a ≠ k := h (a, x) (by simp)
    have hm : ∀ p ∈ m, p.1 ≠ k := fun p hp => h p (by simp [hp])
    by_cases hl : k < a
    · have : m.filter (fun p => p.1 != k) = m := by
        rw [List.filter_eq_self]; intro p hp; simpa using hm p hp
      simp [mput, hl, ha, this]
    · simp [mput, hl, ha, ih hm]

/-- The second of two writes to one key decides. -/
@[simp] theorem mset_mset [DecidableEq α] (d : Nat → α) (m : Map α) (k : Nat) (v w : α) :
    mset d (mset d m k v) k w = mset d m k w := by
  have hf : (mset d m k v).filter (fun p => p.1 != k) = m.filter fun p => p.1 != k := by
    unfold mset
    split
    · simp
    · exact mput_filter k v _ (by simp)
  unfold mset at hf ⊢
  rw [hf]

-- the canonical form

theorem wfFrom_mono [DecidableEq α] (d : Nat → α) (m : Map α) (a b : Nat) (h : a ≤ b)
    (w : Map.wfFrom d b m = true) : Map.wfFrom d a m = true := by
  cases m with
  | nil => rfl
  | cons p m => simp_all [Map.wfFrom]; omega

theorem wfFrom_filter [DecidableEq α] (d : Nat → α) (p : Nat × α → Bool) (m : Map α) (lo : Nat)
    (w : Map.wfFrom d lo m = true) : Map.wfFrom d lo (m.filter p) = true := by
  induction m generalizing lo with
  | nil => rfl
  | cons q m ih =>
    obtain ⟨a, x⟩ := q
    simp only [Map.wfFrom, Bool.and_eq_true, decide_eq_true_eq] at w
    by_cases hp : p (a, x)
    · simp [hp, Map.wfFrom, w.1, ih _ w.2]
    · simp only [List.filter_cons, hp, if_false, Bool.false_eq_true]
      exact wfFrom_mono d _ _ (a + 1) (by omega) (ih _ w.2)

theorem wfFrom_mput [DecidableEq α] (d : Nat → α) (m : Map α) (k : Nat) (v : α) (lo : Nat) (hv : v ≠ d k)
    (hk : ∀ p ∈ m, p.1 ≠ k) (hlo : lo ≤ k) (w : Map.wfFrom d lo m = true) :
    Map.wfFrom d lo (mput k v m) = true := by
  induction m generalizing lo with
  | nil => simp [mput, Map.wfFrom, hv, hlo]
  | cons q m ih =>
    obtain ⟨a, x⟩ := q
    have ha : a ≠ k := hk (a, x) (by simp)
    simp only [Map.wfFrom, Bool.and_eq_true, decide_eq_true_eq] at w
    by_cases hl : k < a
    · simp [mput, hl, Map.wfFrom, hv, hlo, w.1.2, w.2]
    · have := ih (a + 1) (fun p hp => hk p (by simp [hp])) (by omega) w.2
      simp [mput, hl, Map.wfFrom, w.1, this]

/-- Every write keeps the canonical form. -/
theorem wf_mset [DecidableEq α] (d : Nat → α) (m : Map α) (k : Nat) (v : α) (w : Map.wf d m = true) :
    Map.wf d (mset d m k v) = true := by
  unfold mset Map.wf at *
  split
  · exact wfFrom_filter d _ m 0 w
  · next hv => exact wfFrom_mput d _ k v 0 hv (by simp) (by omega) (wfFrom_filter d _ m 0 w)

/-- So does the removal of entries. -/
theorem wf_filter [DecidableEq α] (d : Nat → α) (p : Nat × α → Bool) (m : Map α) (w : Map.wf d m = true) :
    Map.wf d (m.filter p) = true := wfFrom_filter d p m 0 w

/-- The empty map is canonical. -/
theorem wf_nil [DecidableEq α] (d : Nat → α) : Map.wf d ([] : Map α) = true := rfl

end Sys2Proof.Machine
end

