-- ==== Sys2Proof/Laws/State.lean ====
section
/-! SUPPORT. What each named update of State leaves alone, field by field, and what it writes. -/

namespace Sys2Proof.Machine

open Sys2Proof

/-- Requesters have different indices. -/
theorem req_idx_inj (a b : Req) (h : a.idx = b.idx) : a = b := by
  cases a <;> cases b <;> simp_all [Req.idx] <;> omega

-- setReg

section
variable (s : State) (k : Nat) (v : Word)

@[simp] theorem setReg_pending : (s.setReg k v).pending = s.pending := rfl
@[simp] theorem setReg_fresh : (s.setReg k v).fresh = s.fresh := rfl
@[simp] theorem setReg_boot : (s.setReg k v).boot = s.boot := rfl
@[simp] theorem setReg_sram : (s.setReg k v).sram = s.sram := rfl
@[simp] theorem setReg_units : (s.setReg k v).units = s.units := rfl
@[simp] theorem setReg_reqs : (s.setReg k v).reqs = s.reqs := rfl
@[simp] theorem setReg_clock : (s.setReg k v).clock = s.clock := rfl
@[simp] theorem setReg_supply : (s.setReg k v).supply = s.supply := rfl
@[simp] theorem setReg_draught : (s.setReg k v).draught = s.draught := rfl
@[simp] theorem setReg_holders : (s.setReg k v).holders = s.holders := rfl
@[simp] theorem setReg_ledger : (s.setReg k v).ledger = s.ledger := rfl
@[simp] theorem setReg_commitNo : (s.setReg k v).commitNo = s.commitNo := rfl
@[simp] theorem setReg_log : (s.setReg k v).log = s.log := rfl
@[simp] theorem setReg_logSeq : (s.setReg k v).logSeq = s.logSeq := rfl
@[simp] theorem setReg_logLost : (s.setReg k v).logLost = s.logLost := rfl
@[simp] theorem setReg_rails : (s.setReg k v).rails = s.rails := rfl
@[simp] theorem setReg_ldos : (s.setReg k v).ldos = s.ldos := rfl
@[simp] theorem setReg_sups : (s.setReg k v).sups = s.sups := rfl
@[simp] theorem setReg_snap : (s.setReg k v).snap = s.snap := rfl
@[simp] theorem setReg_recsDue : (s.setReg k v).recsDue = s.recsDue := rfl
@[simp] theorem setReg_store : (s.setReg k v).store = s.store := rfl
@[simp] theorem setReg_storeSeq : (s.setReg k v).storeSeq = s.storeSeq := rfl
@[simp] theorem setReg_seq : (s.setReg k v).seq = s.seq := rfl
@[simp] theorem setReg_seqTab : (s.setReg k v).seqTab = s.seqTab := rfl
@[simp] theorem setReg_stopN : (s.setReg k v).stopN = s.stopN := rfl
@[simp] theorem setReg_errN : (s.setReg k v).errN = s.errN := rfl
@[simp] theorem setReg_lcp : (s.setReg k v).lcp = s.lcp := rfl
@[simp] theorem setReg_slots : (s.setReg k v).slots = s.slots := rfl
@[simp] theorem setReg_flvl : (s.setReg k v).flvl = s.flvl := rfl
@[simp] theorem setReg_fsrc : (s.setReg k v).fsrc = s.fsrc := rfl
@[simp] theorem setReg_unack : (s.setReg k v).unack = s.unack := rfl
@[simp] theorem setReg_errnHold : (s.setReg k v).errnHold = s.errnHold := rfl
@[simp] theorem setReg_occs : (s.setReg k v).occs = s.occs := rfl
@[simp] theorem setReg_engs : (s.setReg k v).engs = s.engs := rfl
@[simp] theorem setReg_cache : (s.setReg k v).cache = s.cache := rfl
@[simp] theorem setReg_irq : (s.setReg k v).irq = s.irq := rfl
@[simp] theorem setReg_extLvl : (s.setReg k v).extLvl = s.extLvl := rfl
@[simp] theorem setReg_mea : (s.setReg k v).mea = s.mea := rfl
@[simp] theorem setReg_ring : (s.setReg k v).ring = s.ring := rfl
@[simp] theorem setReg_floor : (s.setReg k v).floor = s.floor := rfl
@[simp] theorem setReg_chg : (s.setReg k v).chg = s.chg := rfl
@[simp] theorem setReg_sphMode : (s.setReg k v).sphMode = s.sphMode := rfl
@[simp] theorem setReg_sphAddr4 : (s.setReg k v).sphAddr4 = s.sphAddr4 := rfl
@[simp] theorem setReg_sphCmd : (s.setReg k v).sphCmd = s.sphCmd := rfl
@[simp] theorem setReg_sphUse : (s.setReg k v).sphUse = s.sphUse := rfl
@[simp] theorem setReg_spt : (s.setReg k v).spt = s.spt := rfl
@[simp] theorem setReg_i2ca : (s.setReg k v).i2ca = s.i2ca := rfl
@[simp] theorem setReg_i2cb : (s.setReg k v).i2cb = s.i2cb := rfl
@[simp] theorem setReg_uart : (s.setReg k v).uart = s.uart := rfl
@[simp] theorem setReg_timers : (s.setReg k v).timers = s.timers := rfl
@[simp] theorem setReg_gpioIn : (s.setReg k v).gpioIn = s.gpioIn := rfl
@[simp] theorem setReg_rtc : (s.setReg k v).rtc = s.rtc := rfl
@[simp] theorem setReg_otp : (s.setReg k v).otp = s.otp := rfl
@[simp] theorem setReg_jtag : (s.setReg k v).jtag = s.jtag := rfl
@[simp] theorem setReg_unit (b : Nat) : (s.setReg k v).unit b = s.unit b := rfl
@[simp] theorem setReg_req (b : Req) : (s.setReg k v).req b = s.req b := rfl
@[simp] theorem setReg_rail (b : Nat) : (s.setReg k v).rail b = s.rail b := rfl
@[simp] theorem setReg_ldo (b : Nat) : (s.setReg k v).ldo b = s.ldo b := rfl
@[simp] theorem setReg_sup (b : Nat) : (s.setReg k v).sup b = s.sup b := rfl
@[simp] theorem setReg_port (b : Nat) : (s.setReg k v).port b = s.port b := rfl
@[simp] theorem setReg_slot (b : Nat) : (s.setReg k v).slot b = s.slot b := rfl
@[simp] theorem setReg_flt (b : Nat) : (s.setReg k v).flt b = s.flt b := rfl
@[simp] theorem setReg_eng (b : Nat) : (s.setReg k v).eng b = s.eng b := rfl
@[simp] theorem setReg_timer (b : Nat) : (s.setReg k v).timer b = s.timer b := rfl
@[simp] theorem setReg_lane (b : Nat) : (s.setReg k v).lane b = s.lane b := rfl
@[simp] theorem setReg_tap (b : Nat) : (s.setReg k v).tap b = s.tap b := rfl
@[simp] theorem setReg_sramAt (b : Nat) : (s.setReg k v).sramAt b = s.sramAt b := rfl
@[simp] theorem setReg_reg_self : (s.setReg k v).reg k = v := by simp [State.reg, State.setReg]
theorem setReg_reg (b : Nat) : (s.setReg k v).reg b = if b = k then v else s.reg b := by
  simp [State.reg, State.setReg, mget_mset]
@[simp] theorem setReg_setReg (w : Word) : (s.setReg k v).setReg k w = s.setReg k w := by simp [State.setReg]

end

-- setUnit

section
variable (s : State) (k : Nat) (v : UnitSt)

@[simp] theorem setUnit_pending : (s.setUnit k v).pending = s.pending := rfl
@[simp] theorem setUnit_fresh : (s.setUnit k v).fresh = s.fresh := rfl
@[simp] theorem setUnit_boot : (s.setUnit k v).boot = s.boot := rfl
@[simp] theorem setUnit_regs : (s.setUnit k v).regs = s.regs := rfl
@[simp] theorem setUnit_sram : (s.setUnit k v).sram = s.sram := rfl
@[simp] theorem setUnit_reqs : (s.setUnit k v).reqs = s.reqs := rfl
@[simp] theorem setUnit_clock : (s.setUnit k v).clock = s.clock := rfl
@[simp] theorem setUnit_supply : (s.setUnit k v).supply = s.supply := rfl
@[simp] theorem setUnit_draught : (s.setUnit k v).draught = s.draught := rfl
@[simp] theorem setUnit_holders : (s.setUnit k v).holders = s.holders := rfl
@[simp] theorem setUnit_ledger : (s.setUnit k v).ledger = s.ledger := rfl
@[simp] theorem setUnit_commitNo : (s.setUnit k v).commitNo = s.commitNo := rfl
@[simp] theorem setUnit_log : (s.setUnit k v).log = s.log := rfl
@[simp] theorem setUnit_logSeq : (s.setUnit k v).logSeq = s.logSeq := rfl
@[simp] theorem setUnit_logLost : (s.setUnit k v).logLost = s.logLost := rfl
@[simp] theorem setUnit_rails : (s.setUnit k v).rails = s.rails := rfl
@[simp] theorem setUnit_ldos : (s.setUnit k v).ldos = s.ldos := rfl
@[simp] theorem setUnit_sups : (s.setUnit k v).sups = s.sups := rfl
@[simp] theorem setUnit_snap : (s.setUnit k v).snap = s.snap := rfl
@[simp] theorem setUnit_recsDue : (s.setUnit k v).recsDue = s.recsDue := rfl
@[simp] theorem setUnit_store : (s.setUnit k v).store = s.store := rfl
@[simp] theorem setUnit_storeSeq : (s.setUnit k v).storeSeq = s.storeSeq := rfl
@[simp] theorem setUnit_seq : (s.setUnit k v).seq = s.seq := rfl
@[simp] theorem setUnit_seqTab : (s.setUnit k v).seqTab = s.seqTab := rfl
@[simp] theorem setUnit_stopN : (s.setUnit k v).stopN = s.stopN := rfl
@[simp] theorem setUnit_errN : (s.setUnit k v).errN = s.errN := rfl
@[simp] theorem setUnit_lcp : (s.setUnit k v).lcp = s.lcp := rfl
@[simp] theorem setUnit_slots : (s.setUnit k v).slots = s.slots := rfl
@[simp] theorem setUnit_flvl : (s.setUnit k v).flvl = s.flvl := rfl
@[simp] theorem setUnit_fsrc : (s.setUnit k v).fsrc = s.fsrc := rfl
@[simp] theorem setUnit_unack : (s.setUnit k v).unack = s.unack := rfl
@[simp] theorem setUnit_errnHold : (s.setUnit k v).errnHold = s.errnHold := rfl
@[simp] theorem setUnit_occs : (s.setUnit k v).occs = s.occs := rfl
@[simp] theorem setUnit_engs : (s.setUnit k v).engs = s.engs := rfl
@[simp] theorem setUnit_cache : (s.setUnit k v).cache = s.cache := rfl
@[simp] theorem setUnit_irq : (s.setUnit k v).irq = s.irq := rfl
@[simp] theorem setUnit_extLvl : (s.setUnit k v).extLvl = s.extLvl := rfl
@[simp] theorem setUnit_mea : (s.setUnit k v).mea = s.mea := rfl
@[simp] theorem setUnit_ring : (s.setUnit k v).ring = s.ring := rfl
@[simp] theorem setUnit_floor : (s.setUnit k v).floor = s.floor := rfl
@[simp] theorem setUnit_chg : (s.setUnit k v).chg = s.chg := rfl
@[simp] theorem setUnit_sphMode : (s.setUnit k v).sphMode = s.sphMode := rfl
@[simp] theorem setUnit_sphAddr4 : (s.setUnit k v).sphAddr4 = s.sphAddr4 := rfl
@[simp] theorem setUnit_sphCmd : (s.setUnit k v).sphCmd = s.sphCmd := rfl
@[simp] theorem setUnit_sphUse : (s.setUnit k v).sphUse = s.sphUse := rfl
@[simp] theorem setUnit_spt : (s.setUnit k v).spt = s.spt := rfl
@[simp] theorem setUnit_i2ca : (s.setUnit k v).i2ca = s.i2ca := rfl
@[simp] theorem setUnit_i2cb : (s.setUnit k v).i2cb = s.i2cb := rfl
@[simp] theorem setUnit_uart : (s.setUnit k v).uart = s.uart := rfl
@[simp] theorem setUnit_timers : (s.setUnit k v).timers = s.timers := rfl
@[simp] theorem setUnit_gpioIn : (s.setUnit k v).gpioIn = s.gpioIn := rfl
@[simp] theorem setUnit_rtc : (s.setUnit k v).rtc = s.rtc := rfl
@[simp] theorem setUnit_otp : (s.setUnit k v).otp = s.otp := rfl
@[simp] theorem setUnit_jtag : (s.setUnit k v).jtag = s.jtag := rfl
@[simp] theorem setUnit_reg (b : Nat) : (s.setUnit k v).reg b = s.reg b := rfl
@[simp] theorem setUnit_req (b : Req) : (s.setUnit k v).req b = s.req b := rfl
@[simp] theorem setUnit_rail (b : Nat) : (s.setUnit k v).rail b = s.rail b := rfl
@[simp] theorem setUnit_ldo (b : Nat) : (s.setUnit k v).ldo b = s.ldo b := rfl
@[simp] theorem setUnit_sup (b : Nat) : (s.setUnit k v).sup b = s.sup b := rfl
@[simp] theorem setUnit_port (b : Nat) : (s.setUnit k v).port b = s.port b := rfl
@[simp] theorem setUnit_slot (b : Nat) : (s.setUnit k v).slot b = s.slot b := rfl
@[simp] theorem setUnit_flt (b : Nat) : (s.setUnit k v).flt b = s.flt b := rfl
@[simp] theorem setUnit_eng (b : Nat) : (s.setUnit k v).eng b = s.eng b := rfl
@[simp] theorem setUnit_timer (b : Nat) : (s.setUnit k v).timer b = s.timer b := rfl
@[simp] theorem setUnit_lane (b : Nat) : (s.setUnit k v).lane b = s.lane b := rfl
@[simp] theorem setUnit_tap (b : Nat) : (s.setUnit k v).tap b = s.tap b := rfl
@[simp] theorem setUnit_sramAt (b : Nat) : (s.setUnit k v).sramAt b = s.sramAt b := rfl
@[simp] theorem setUnit_unit_self : (s.setUnit k v).unit k = v := by simp [State.unit, State.setUnit]
theorem setUnit_unit (b : Nat) : (s.setUnit k v).unit b = if b = k then v else s.unit b := by
  simp [State.unit, State.setUnit, mget_mset]
@[simp] theorem setUnit_setUnit (w : UnitSt) : (s.setUnit k v).setUnit k w = s.setUnit k w := by simp [State.setUnit]

end

-- setReq

section
variable (s : State) (k : Req) (v : ReqSt)

@[simp] theorem setReq_pending : (s.setReq k v).pending = s.pending := rfl
@[simp] theorem setReq_fresh : (s.setReq k v).fresh = s.fresh := rfl
@[simp] theorem setReq_boot : (s.setReq k v).boot = s.boot := rfl
@[simp] theorem setReq_regs : (s.setReq k v).regs = s.regs := rfl
@[simp] theorem setReq_sram : (s.setReq k v).sram = s.sram := rfl
@[simp] theorem setReq_units : (s.setReq k v).units = s.units := rfl
@[simp] theorem setReq_clock : (s.setReq k v).clock = s.clock := rfl
@[simp] theorem setReq_supply : (s.setReq k v).supply = s.supply := rfl
@[simp] theorem setReq_draught : (s.setReq k v).draught = s.draught := rfl
@[simp] theorem setReq_holders : (s.setReq k v).holders = s.holders := rfl
@[simp] theorem setReq_ledger : (s.setReq k v).ledger = s.ledger := rfl
@[simp] theorem setReq_commitNo : (s.setReq k v).commitNo = s.commitNo := rfl
@[simp] theorem setReq_log : (s.setReq k v).log = s.log := rfl
@[simp] theorem setReq_logSeq : (s.setReq k v).logSeq = s.logSeq := rfl
@[simp] theorem setReq_logLost : (s.setReq k v).logLost = s.logLost := rfl
@[simp] theorem setReq_rails : (s.setReq k v).rails = s.rails := rfl
@[simp] theorem setReq_ldos : (s.setReq k v).ldos = s.ldos := rfl
@[simp] theorem setReq_sups : (s.setReq k v).sups = s.sups := rfl
@[simp] theorem setReq_snap : (s.setReq k v).snap = s.snap := rfl
@[simp] theorem setReq_recsDue : (s.setReq k v).recsDue = s.recsDue := rfl
@[simp] theorem setReq_store : (s.setReq k v).store = s.store := rfl
@[simp] theorem setReq_storeSeq : (s.setReq k v).storeSeq = s.storeSeq := rfl
@[simp] theorem setReq_seq : (s.setReq k v).seq = s.seq := rfl
@[simp] theorem setReq_seqTab : (s.setReq k v).seqTab = s.seqTab := rfl
@[simp] theorem setReq_stopN : (s.setReq k v).stopN = s.stopN := rfl
@[simp] theorem setReq_errN : (s.setReq k v).errN = s.errN := rfl
@[simp] theorem setReq_lcp : (s.setReq k v).lcp = s.lcp := rfl
@[simp] theorem setReq_slots : (s.setReq k v).slots = s.slots := rfl
@[simp] theorem setReq_flvl : (s.setReq k v).flvl = s.flvl := rfl
@[simp] theorem setReq_fsrc : (s.setReq k v).fsrc = s.fsrc := rfl
@[simp] theorem setReq_unack : (s.setReq k v).unack = s.unack := rfl
@[simp] theorem setReq_errnHold : (s.setReq k v).errnHold = s.errnHold := rfl
@[simp] theorem setReq_occs : (s.setReq k v).occs = s.occs := rfl
@[simp] theorem setReq_engs : (s.setReq k v).engs = s.engs := rfl
@[simp] theorem setReq_cache : (s.setReq k v).cache = s.cache := rfl
@[simp] theorem setReq_irq : (s.setReq k v).irq = s.irq := rfl
@[simp] theorem setReq_extLvl : (s.setReq k v).extLvl = s.extLvl := rfl
@[simp] theorem setReq_mea : (s.setReq k v).mea = s.mea := rfl
@[simp] theorem setReq_ring : (s.setReq k v).ring = s.ring := rfl
@[simp] theorem setReq_floor : (s.setReq k v).floor = s.floor := rfl
@[simp] theorem setReq_chg : (s.setReq k v).chg = s.chg := rfl
@[simp] theorem setReq_sphMode : (s.setReq k v).sphMode = s.sphMode := rfl
@[simp] theorem setReq_sphAddr4 : (s.setReq k v).sphAddr4 = s.sphAddr4 := rfl
@[simp] theorem setReq_sphCmd : (s.setReq k v).sphCmd = s.sphCmd := rfl
@[simp] theorem setReq_sphUse : (s.setReq k v).sphUse = s.sphUse := rfl
@[simp] theorem setReq_spt : (s.setReq k v).spt = s.spt := rfl
@[simp] theorem setReq_i2ca : (s.setReq k v).i2ca = s.i2ca := rfl
@[simp] theorem setReq_i2cb : (s.setReq k v).i2cb = s.i2cb := rfl
@[simp] theorem setReq_uart : (s.setReq k v).uart = s.uart := rfl
@[simp] theorem setReq_timers : (s.setReq k v).timers = s.timers := rfl
@[simp] theorem setReq_gpioIn : (s.setReq k v).gpioIn = s.gpioIn := rfl
@[simp] theorem setReq_rtc : (s.setReq k v).rtc = s.rtc := rfl
@[simp] theorem setReq_otp : (s.setReq k v).otp = s.otp := rfl
@[simp] theorem setReq_jtag : (s.setReq k v).jtag = s.jtag := rfl
@[simp] theorem setReq_reg (b : Nat) : (s.setReq k v).reg b = s.reg b := rfl
@[simp] theorem setReq_unit (b : Nat) : (s.setReq k v).unit b = s.unit b := rfl
@[simp] theorem setReq_rail (b : Nat) : (s.setReq k v).rail b = s.rail b := rfl
@[simp] theorem setReq_ldo (b : Nat) : (s.setReq k v).ldo b = s.ldo b := rfl
@[simp] theorem setReq_sup (b : Nat) : (s.setReq k v).sup b = s.sup b := rfl
@[simp] theorem setReq_port (b : Nat) : (s.setReq k v).port b = s.port b := rfl
@[simp] theorem setReq_slot (b : Nat) : (s.setReq k v).slot b = s.slot b := rfl
@[simp] theorem setReq_flt (b : Nat) : (s.setReq k v).flt b = s.flt b := rfl
@[simp] theorem setReq_eng (b : Nat) : (s.setReq k v).eng b = s.eng b := rfl
@[simp] theorem setReq_timer (b : Nat) : (s.setReq k v).timer b = s.timer b := rfl
@[simp] theorem setReq_lane (b : Nat) : (s.setReq k v).lane b = s.lane b := rfl
@[simp] theorem setReq_tap (b : Nat) : (s.setReq k v).tap b = s.tap b := rfl
@[simp] theorem setReq_sramAt (b : Nat) : (s.setReq k v).sramAt b = s.sramAt b := rfl
@[simp] theorem setReq_req_self : (s.setReq k v).req k = v := by simp [State.req, State.setReq]
theorem setReq_req (b : Req) : (s.setReq k v).req b = if b = k then v else s.req b := by
  by_cases h : b = k
  · subst h; simp
  · have : b.idx ≠ k.idx := fun e => h (req_idx_inj b k e)
    simp [State.req, State.setReq, mget_mset, h, this]

end

-- setRail

section
variable (s : State) (k : Nat) (v : Rail)

@[simp] theorem setRail_pending : (s.setRail k v).pending = s.pending := rfl
@[simp] theorem setRail_fresh : (s.setRail k v).fresh = s.fresh := rfl
@[simp] theorem setRail_boot : (s.setRail k v).boot = s.boot := rfl
@[simp] theorem setRail_regs : (s.setRail k v).regs = s.regs := rfl
@[simp] theorem setRail_sram : (s.setRail k v).sram = s.sram := rfl
@[simp] theorem setRail_units : (s.setRail k v).units = s.units := rfl
@[simp] theorem setRail_reqs : (s.setRail k v).reqs = s.reqs := rfl
@[simp] theorem setRail_clock : (s.setRail k v).clock = s.clock := rfl
@[simp] theorem setRail_supply : (s.setRail k v).supply = s.supply := rfl
@[simp] theorem setRail_draught : (s.setRail k v).draught = s.draught := rfl
@[simp] theorem setRail_holders : (s.setRail k v).holders = s.holders := rfl
@[simp] theorem setRail_ledger : (s.setRail k v).ledger = s.ledger := rfl
@[simp] theorem setRail_commitNo : (s.setRail k v).commitNo = s.commitNo := rfl
@[simp] theorem setRail_log : (s.setRail k v).log = s.log := rfl
@[simp] theorem setRail_logSeq : (s.setRail k v).logSeq = s.logSeq := rfl
@[simp] theorem setRail_logLost : (s.setRail k v).logLost = s.logLost := rfl
@[simp] theorem setRail_ldos : (s.setRail k v).ldos = s.ldos := rfl
@[simp] theorem setRail_sups : (s.setRail k v).sups = s.sups := rfl
@[simp] theorem setRail_snap : (s.setRail k v).snap = s.snap := rfl
@[simp] theorem setRail_recsDue : (s.setRail k v).recsDue = s.recsDue := rfl
@[simp] theorem setRail_store : (s.setRail k v).store = s.store := rfl
@[simp] theorem setRail_storeSeq : (s.setRail k v).storeSeq = s.storeSeq := rfl
@[simp] theorem setRail_seq : (s.setRail k v).seq = s.seq := rfl
@[simp] theorem setRail_seqTab : (s.setRail k v).seqTab = s.seqTab := rfl
@[simp] theorem setRail_stopN : (s.setRail k v).stopN = s.stopN := rfl
@[simp] theorem setRail_errN : (s.setRail k v).errN = s.errN := rfl
@[simp] theorem setRail_lcp : (s.setRail k v).lcp = s.lcp := rfl
@[simp] theorem setRail_slots : (s.setRail k v).slots = s.slots := rfl
@[simp] theorem setRail_flvl : (s.setRail k v).flvl = s.flvl := rfl
@[simp] theorem setRail_fsrc : (s.setRail k v).fsrc = s.fsrc := rfl
@[simp] theorem setRail_unack : (s.setRail k v).unack = s.unack := rfl
@[simp] theorem setRail_errnHold : (s.setRail k v).errnHold = s.errnHold := rfl
@[simp] theorem setRail_occs : (s.setRail k v).occs = s.occs := rfl
@[simp] theorem setRail_engs : (s.setRail k v).engs = s.engs := rfl
@[simp] theorem setRail_cache : (s.setRail k v).cache = s.cache := rfl
@[simp] theorem setRail_irq : (s.setRail k v).irq = s.irq := rfl
@[simp] theorem setRail_extLvl : (s.setRail k v).extLvl = s.extLvl := rfl
@[simp] theorem setRail_mea : (s.setRail k v).mea = s.mea := rfl
@[simp] theorem setRail_ring : (s.setRail k v).ring = s.ring := rfl
@[simp] theorem setRail_floor : (s.setRail k v).floor = s.floor := rfl
@[simp] theorem setRail_chg : (s.setRail k v).chg = s.chg := rfl
@[simp] theorem setRail_sphMode : (s.setRail k v).sphMode = s.sphMode := rfl
@[simp] theorem setRail_sphAddr4 : (s.setRail k v).sphAddr4 = s.sphAddr4 := rfl
@[simp] theorem setRail_sphCmd : (s.setRail k v).sphCmd = s.sphCmd := rfl
@[simp] theorem setRail_sphUse : (s.setRail k v).sphUse = s.sphUse := rfl
@[simp] theorem setRail_spt : (s.setRail k v).spt = s.spt := rfl
@[simp] theorem setRail_i2ca : (s.setRail k v).i2ca = s.i2ca := rfl
@[simp] theorem setRail_i2cb : (s.setRail k v).i2cb = s.i2cb := rfl
@[simp] theorem setRail_uart : (s.setRail k v).uart = s.uart := rfl
@[simp] theorem setRail_timers : (s.setRail k v).timers = s.timers := rfl
@[simp] theorem setRail_gpioIn : (s.setRail k v).gpioIn = s.gpioIn := rfl
@[simp] theorem setRail_rtc : (s.setRail k v).rtc = s.rtc := rfl
@[simp] theorem setRail_otp : (s.setRail k v).otp = s.otp := rfl
@[simp] theorem setRail_jtag : (s.setRail k v).jtag = s.jtag := rfl
@[simp] theorem setRail_reg (b : Nat) : (s.setRail k v).reg b = s.reg b := rfl
@[simp] theorem setRail_unit (b : Nat) : (s.setRail k v).unit b = s.unit b := rfl
@[simp] theorem setRail_req (b : Req) : (s.setRail k v).req b = s.req b := rfl
@[simp] theorem setRail_ldo (b : Nat) : (s.setRail k v).ldo b = s.ldo b := rfl
@[simp] theorem setRail_sup (b : Nat) : (s.setRail k v).sup b = s.sup b := rfl
@[simp] theorem setRail_port (b : Nat) : (s.setRail k v).port b = s.port b := rfl
@[simp] theorem setRail_slot (b : Nat) : (s.setRail k v).slot b = s.slot b := rfl
@[simp] theorem setRail_flt (b : Nat) : (s.setRail k v).flt b = s.flt b := rfl
@[simp] theorem setRail_eng (b : Nat) : (s.setRail k v).eng b = s.eng b := rfl
@[simp] theorem setRail_timer (b : Nat) : (s.setRail k v).timer b = s.timer b := rfl
@[simp] theorem setRail_lane (b : Nat) : (s.setRail k v).lane b = s.lane b := rfl
@[simp] theorem setRail_tap (b : Nat) : (s.setRail k v).tap b = s.tap b := rfl
@[simp] theorem setRail_sramAt (b : Nat) : (s.setRail k v).sramAt b = s.sramAt b := rfl
@[simp] theorem setRail_rail_self : (s.setRail k v).rail k = v := by simp [State.rail, State.setRail]
theorem setRail_rail (b : Nat) : (s.setRail k v).rail b = if b = k then v else s.rail b := by
  simp [State.rail, State.setRail, mget_mset]
@[simp] theorem setRail_setRail (w : Rail) : (s.setRail k v).setRail k w = s.setRail k w := by simp [State.setRail]

end

-- setLdo

section
variable (s : State) (k : Nat) (v : Ldo)

@[simp] theorem setLdo_pending : (s.setLdo k v).pending = s.pending := rfl
@[simp] theorem setLdo_fresh : (s.setLdo k v).fresh = s.fresh := rfl
@[simp] theorem setLdo_boot : (s.setLdo k v).boot = s.boot := rfl
@[simp] theorem setLdo_regs : (s.setLdo k v).regs = s.regs := rfl
@[simp] theorem setLdo_sram : (s.setLdo k v).sram = s.sram := rfl
@[simp] theorem setLdo_units : (s.setLdo k v).units = s.units := rfl
@[simp] theorem setLdo_reqs : (s.setLdo k v).reqs = s.reqs := rfl
@[simp] theorem setLdo_clock : (s.setLdo k v).clock = s.clock := rfl
@[simp] theorem setLdo_supply : (s.setLdo k v).supply = s.supply := rfl
@[simp] theorem setLdo_draught : (s.setLdo k v).draught = s.draught := rfl
@[simp] theorem setLdo_holders : (s.setLdo k v).holders = s.holders := rfl
@[simp] theorem setLdo_ledger : (s.setLdo k v).ledger = s.ledger := rfl
@[simp] theorem setLdo_commitNo : (s.setLdo k v).commitNo = s.commitNo := rfl
@[simp] theorem setLdo_log : (s.setLdo k v).log = s.log := rfl
@[simp] theorem setLdo_logSeq : (s.setLdo k v).logSeq = s.logSeq := rfl
@[simp] theorem setLdo_logLost : (s.setLdo k v).logLost = s.logLost := rfl
@[simp] theorem setLdo_rails : (s.setLdo k v).rails = s.rails := rfl
@[simp] theorem setLdo_sups : (s.setLdo k v).sups = s.sups := rfl
@[simp] theorem setLdo_snap : (s.setLdo k v).snap = s.snap := rfl
@[simp] theorem setLdo_recsDue : (s.setLdo k v).recsDue = s.recsDue := rfl
@[simp] theorem setLdo_store : (s.setLdo k v).store = s.store := rfl
@[simp] theorem setLdo_storeSeq : (s.setLdo k v).storeSeq = s.storeSeq := rfl
@[simp] theorem setLdo_seq : (s.setLdo k v).seq = s.seq := rfl
@[simp] theorem setLdo_seqTab : (s.setLdo k v).seqTab = s.seqTab := rfl
@[simp] theorem setLdo_stopN : (s.setLdo k v).stopN = s.stopN := rfl
@[simp] theorem setLdo_errN : (s.setLdo k v).errN = s.errN := rfl
@[simp] theorem setLdo_lcp : (s.setLdo k v).lcp = s.lcp := rfl
@[simp] theorem setLdo_slots : (s.setLdo k v).slots = s.slots := rfl
@[simp] theorem setLdo_flvl : (s.setLdo k v).flvl = s.flvl := rfl
@[simp] theorem setLdo_fsrc : (s.setLdo k v).fsrc = s.fsrc := rfl
@[simp] theorem setLdo_unack : (s.setLdo k v).unack = s.unack := rfl
@[simp] theorem setLdo_errnHold : (s.setLdo k v).errnHold = s.errnHold := rfl
@[simp] theorem setLdo_occs : (s.setLdo k v).occs = s.occs := rfl
@[simp] theorem setLdo_engs : (s.setLdo k v).engs = s.engs := rfl
@[simp] theorem setLdo_cache : (s.setLdo k v).cache = s.cache := rfl
@[simp] theorem setLdo_irq : (s.setLdo k v).irq = s.irq := rfl
@[simp] theorem setLdo_extLvl : (s.setLdo k v).extLvl = s.extLvl := rfl
@[simp] theorem setLdo_mea : (s.setLdo k v).mea = s.mea := rfl
@[simp] theorem setLdo_ring : (s.setLdo k v).ring = s.ring := rfl
@[simp] theorem setLdo_floor : (s.setLdo k v).floor = s.floor := rfl
@[simp] theorem setLdo_chg : (s.setLdo k v).chg = s.chg := rfl
@[simp] theorem setLdo_sphMode : (s.setLdo k v).sphMode = s.sphMode := rfl
@[simp] theorem setLdo_sphAddr4 : (s.setLdo k v).sphAddr4 = s.sphAddr4 := rfl
@[simp] theorem setLdo_sphCmd : (s.setLdo k v).sphCmd = s.sphCmd := rfl
@[simp] theorem setLdo_sphUse : (s.setLdo k v).sphUse = s.sphUse := rfl
@[simp] theorem setLdo_spt : (s.setLdo k v).spt = s.spt := rfl
@[simp] theorem setLdo_i2ca : (s.setLdo k v).i2ca = s.i2ca := rfl
@[simp] theorem setLdo_i2cb : (s.setLdo k v).i2cb = s.i2cb := rfl
@[simp] theorem setLdo_uart : (s.setLdo k v).uart = s.uart := rfl
@[simp] theorem setLdo_timers : (s.setLdo k v).timers = s.timers := rfl
@[simp] theorem setLdo_gpioIn : (s.setLdo k v).gpioIn = s.gpioIn := rfl
@[simp] theorem setLdo_rtc : (s.setLdo k v).rtc = s.rtc := rfl
@[simp] theorem setLdo_otp : (s.setLdo k v).otp = s.otp := rfl
@[simp] theorem setLdo_jtag : (s.setLdo k v).jtag = s.jtag := rfl
@[simp] theorem setLdo_reg (b : Nat) : (s.setLdo k v).reg b = s.reg b := rfl
@[simp] theorem setLdo_unit (b : Nat) : (s.setLdo k v).unit b = s.unit b := rfl
@[simp] theorem setLdo_req (b : Req) : (s.setLdo k v).req b = s.req b := rfl
@[simp] theorem setLdo_rail (b : Nat) : (s.setLdo k v).rail b = s.rail b := rfl
@[simp] theorem setLdo_sup (b : Nat) : (s.setLdo k v).sup b = s.sup b := rfl
@[simp] theorem setLdo_port (b : Nat) : (s.setLdo k v).port b = s.port b := rfl
@[simp] theorem setLdo_slot (b : Nat) : (s.setLdo k v).slot b = s.slot b := rfl
@[simp] theorem setLdo_flt (b : Nat) : (s.setLdo k v).flt b = s.flt b := rfl
@[simp] theorem setLdo_eng (b : Nat) : (s.setLdo k v).eng b = s.eng b := rfl
@[simp] theorem setLdo_timer (b : Nat) : (s.setLdo k v).timer b = s.timer b := rfl
@[simp] theorem setLdo_lane (b : Nat) : (s.setLdo k v).lane b = s.lane b := rfl
@[simp] theorem setLdo_tap (b : Nat) : (s.setLdo k v).tap b = s.tap b := rfl
@[simp] theorem setLdo_sramAt (b : Nat) : (s.setLdo k v).sramAt b = s.sramAt b := rfl
@[simp] theorem setLdo_ldo_self : (s.setLdo k v).ldo k = v := by simp [State.ldo, State.setLdo]
theorem setLdo_ldo (b : Nat) : (s.setLdo k v).ldo b = if b = k then v else s.ldo b := by
  simp [State.ldo, State.setLdo, mget_mset]
@[simp] theorem setLdo_setLdo (w : Ldo) : (s.setLdo k v).setLdo k w = s.setLdo k w := by simp [State.setLdo]

end

-- setSup

section
variable (s : State) (k : Nat) (v : Sup)

@[simp] theorem setSup_pending : (s.setSup k v).pending = s.pending := rfl
@[simp] theorem setSup_fresh : (s.setSup k v).fresh = s.fresh := rfl
@[simp] theorem setSup_boot : (s.setSup k v).boot = s.boot := rfl
@[simp] theorem setSup_regs : (s.setSup k v).regs = s.regs := rfl
@[simp] theorem setSup_sram : (s.setSup k v).sram = s.sram := rfl
@[simp] theorem setSup_units : (s.setSup k v).units = s.units := rfl
@[simp] theorem setSup_reqs : (s.setSup k v).reqs = s.reqs := rfl
@[simp] theorem setSup_clock : (s.setSup k v).clock = s.clock := rfl
@[simp] theorem setSup_supply : (s.setSup k v).supply = s.supply := rfl
@[simp] theorem setSup_draught : (s.setSup k v).draught = s.draught := rfl
@[simp] theorem setSup_holders : (s.setSup k v).holders = s.holders := rfl
@[simp] theorem setSup_ledger : (s.setSup k v).ledger = s.ledger := rfl
@[simp] theorem setSup_commitNo : (s.setSup k v).commitNo = s.commitNo := rfl
@[simp] theorem setSup_log : (s.setSup k v).log = s.log := rfl
@[simp] theorem setSup_logSeq : (s.setSup k v).logSeq = s.logSeq := rfl
@[simp] theorem setSup_logLost : (s.setSup k v).logLost = s.logLost := rfl
@[simp] theorem setSup_rails : (s.setSup k v).rails = s.rails := rfl
@[simp] theorem setSup_ldos : (s.setSup k v).ldos = s.ldos := rfl
@[simp] theorem setSup_snap : (s.setSup k v).snap = s.snap := rfl
@[simp] theorem setSup_recsDue : (s.setSup k v).recsDue = s.recsDue := rfl
@[simp] theorem setSup_store : (s.setSup k v).store = s.store := rfl
@[simp] theorem setSup_storeSeq : (s.setSup k v).storeSeq = s.storeSeq := rfl
@[simp] theorem setSup_seq : (s.setSup k v).seq = s.seq := rfl
@[simp] theorem setSup_seqTab : (s.setSup k v).seqTab = s.seqTab := rfl
@[simp] theorem setSup_stopN : (s.setSup k v).stopN = s.stopN := rfl
@[simp] theorem setSup_errN : (s.setSup k v).errN = s.errN := rfl
@[simp] theorem setSup_lcp : (s.setSup k v).lcp = s.lcp := rfl
@[simp] theorem setSup_slots : (s.setSup k v).slots = s.slots := rfl
@[simp] theorem setSup_flvl : (s.setSup k v).flvl = s.flvl := rfl
@[simp] theorem setSup_fsrc : (s.setSup k v).fsrc = s.fsrc := rfl
@[simp] theorem setSup_unack : (s.setSup k v).unack = s.unack := rfl
@[simp] theorem setSup_errnHold : (s.setSup k v).errnHold = s.errnHold := rfl
@[simp] theorem setSup_occs : (s.setSup k v).occs = s.occs := rfl
@[simp] theorem setSup_engs : (s.setSup k v).engs = s.engs := rfl
@[simp] theorem setSup_cache : (s.setSup k v).cache = s.cache := rfl
@[simp] theorem setSup_irq : (s.setSup k v).irq = s.irq := rfl
@[simp] theorem setSup_extLvl : (s.setSup k v).extLvl = s.extLvl := rfl
@[simp] theorem setSup_mea : (s.setSup k v).mea = s.mea := rfl
@[simp] theorem setSup_ring : (s.setSup k v).ring = s.ring := rfl
@[simp] theorem setSup_floor : (s.setSup k v).floor = s.floor := rfl
@[simp] theorem setSup_chg : (s.setSup k v).chg = s.chg := rfl
@[simp] theorem setSup_sphMode : (s.setSup k v).sphMode = s.sphMode := rfl
@[simp] theorem setSup_sphAddr4 : (s.setSup k v).sphAddr4 = s.sphAddr4 := rfl
@[simp] theorem setSup_sphCmd : (s.setSup k v).sphCmd = s.sphCmd := rfl
@[simp] theorem setSup_sphUse : (s.setSup k v).sphUse = s.sphUse := rfl
@[simp] theorem setSup_spt : (s.setSup k v).spt = s.spt := rfl
@[simp] theorem setSup_i2ca : (s.setSup k v).i2ca = s.i2ca := rfl
@[simp] theorem setSup_i2cb : (s.setSup k v).i2cb = s.i2cb := rfl
@[simp] theorem setSup_uart : (s.setSup k v).uart = s.uart := rfl
@[simp] theorem setSup_timers : (s.setSup k v).timers = s.timers := rfl
@[simp] theorem setSup_gpioIn : (s.setSup k v).gpioIn = s.gpioIn := rfl
@[simp] theorem setSup_rtc : (s.setSup k v).rtc = s.rtc := rfl
@[simp] theorem setSup_otp : (s.setSup k v).otp = s.otp := rfl
@[simp] theorem setSup_jtag : (s.setSup k v).jtag = s.jtag := rfl
@[simp] theorem setSup_reg (b : Nat) : (s.setSup k v).reg b = s.reg b := rfl
@[simp] theorem setSup_unit (b : Nat) : (s.setSup k v).unit b = s.unit b := rfl
@[simp] theorem setSup_req (b : Req) : (s.setSup k v).req b = s.req b := rfl
@[simp] theorem setSup_rail (b : Nat) : (s.setSup k v).rail b = s.rail b := rfl
@[simp] theorem setSup_ldo (b : Nat) : (s.setSup k v).ldo b = s.ldo b := rfl
@[simp] theorem setSup_port (b : Nat) : (s.setSup k v).port b = s.port b := rfl
@[simp] theorem setSup_slot (b : Nat) : (s.setSup k v).slot b = s.slot b := rfl
@[simp] theorem setSup_flt (b : Nat) : (s.setSup k v).flt b = s.flt b := rfl
@[simp] theorem setSup_eng (b : Nat) : (s.setSup k v).eng b = s.eng b := rfl
@[simp] theorem setSup_timer (b : Nat) : (s.setSup k v).timer b = s.timer b := rfl
@[simp] theorem setSup_lane (b : Nat) : (s.setSup k v).lane b = s.lane b := rfl
@[simp] theorem setSup_tap (b : Nat) : (s.setSup k v).tap b = s.tap b := rfl
@[simp] theorem setSup_sramAt (b : Nat) : (s.setSup k v).sramAt b = s.sramAt b := rfl
@[simp] theorem setSup_sup_self : (s.setSup k v).sup k = v := by simp [State.sup, State.setSup]
theorem setSup_sup (b : Nat) : (s.setSup k v).sup b = if b = k then v else s.sup b := by
  simp [State.sup, State.setSup, mget_mset]
@[simp] theorem setSup_setSup (w : Sup) : (s.setSup k v).setSup k w = s.setSup k w := by simp [State.setSup]

end

-- setPort

section
variable (s : State) (k : Nat) (v : LcpPort)

@[simp] theorem setPort_pending : (s.setPort k v).pending = s.pending := rfl
@[simp] theorem setPort_fresh : (s.setPort k v).fresh = s.fresh := rfl
@[simp] theorem setPort_boot : (s.setPort k v).boot = s.boot := rfl
@[simp] theorem setPort_regs : (s.setPort k v).regs = s.regs := rfl
@[simp] theorem setPort_sram : (s.setPort k v).sram = s.sram := rfl
@[simp] theorem setPort_units : (s.setPort k v).units = s.units := rfl
@[simp] theorem setPort_reqs : (s.setPort k v).reqs = s.reqs := rfl
@[simp] theorem setPort_clock : (s.setPort k v).clock = s.clock := rfl
@[simp] theorem setPort_supply : (s.setPort k v).supply = s.supply := rfl
@[simp] theorem setPort_draught : (s.setPort k v).draught = s.draught := rfl
@[simp] theorem setPort_holders : (s.setPort k v).holders = s.holders := rfl
@[simp] theorem setPort_ledger : (s.setPort k v).ledger = s.ledger := rfl
@[simp] theorem setPort_commitNo : (s.setPort k v).commitNo = s.commitNo := rfl
@[simp] theorem setPort_log : (s.setPort k v).log = s.log := rfl
@[simp] theorem setPort_logSeq : (s.setPort k v).logSeq = s.logSeq := rfl
@[simp] theorem setPort_logLost : (s.setPort k v).logLost = s.logLost := rfl
@[simp] theorem setPort_rails : (s.setPort k v).rails = s.rails := rfl
@[simp] theorem setPort_ldos : (s.setPort k v).ldos = s.ldos := rfl
@[simp] theorem setPort_sups : (s.setPort k v).sups = s.sups := rfl
@[simp] theorem setPort_snap : (s.setPort k v).snap = s.snap := rfl
@[simp] theorem setPort_recsDue : (s.setPort k v).recsDue = s.recsDue := rfl
@[simp] theorem setPort_store : (s.setPort k v).store = s.store := rfl
@[simp] theorem setPort_storeSeq : (s.setPort k v).storeSeq = s.storeSeq := rfl
@[simp] theorem setPort_seq : (s.setPort k v).seq = s.seq := rfl
@[simp] theorem setPort_seqTab : (s.setPort k v).seqTab = s.seqTab := rfl
@[simp] theorem setPort_stopN : (s.setPort k v).stopN = s.stopN := rfl
@[simp] theorem setPort_errN : (s.setPort k v).errN = s.errN := rfl
@[simp] theorem setPort_slots : (s.setPort k v).slots = s.slots := rfl
@[simp] theorem setPort_flvl : (s.setPort k v).flvl = s.flvl := rfl
@[simp] theorem setPort_fsrc : (s.setPort k v).fsrc = s.fsrc := rfl
@[simp] theorem setPort_unack : (s.setPort k v).unack = s.unack := rfl
@[simp] theorem setPort_errnHold : (s.setPort k v).errnHold = s.errnHold := rfl
@[simp] theorem setPort_occs : (s.setPort k v).occs = s.occs := rfl
@[simp] theorem setPort_engs : (s.setPort k v).engs = s.engs := rfl
@[simp] theorem setPort_cache : (s.setPort k v).cache = s.cache := rfl
@[simp] theorem setPort_irq : (s.setPort k v).irq = s.irq := rfl
@[simp] theorem setPort_extLvl : (s.setPort k v).extLvl = s.extLvl := rfl
@[simp] theorem setPort_mea : (s.setPort k v).mea = s.mea := rfl
@[simp] theorem setPort_ring : (s.setPort k v).ring = s.ring := rfl
@[simp] theorem setPort_floor : (s.setPort k v).floor = s.floor := rfl
@[simp] theorem setPort_chg : (s.setPort k v).chg = s.chg := rfl
@[simp] theorem setPort_sphMode : (s.setPort k v).sphMode = s.sphMode := rfl
@[simp] theorem setPort_sphAddr4 : (s.setPort k v).sphAddr4 = s.sphAddr4 := rfl
@[simp] theorem setPort_sphCmd : (s.setPort k v).sphCmd = s.sphCmd := rfl
@[simp] theorem setPort_sphUse : (s.setPort k v).sphUse = s.sphUse := rfl
@[simp] theorem setPort_spt : (s.setPort k v).spt = s.spt := rfl
@[simp] theorem setPort_i2ca : (s.setPort k v).i2ca = s.i2ca := rfl
@[simp] theorem setPort_i2cb : (s.setPort k v).i2cb = s.i2cb := rfl
@[simp] theorem setPort_uart : (s.setPort k v).uart = s.uart := rfl
@[simp] theorem setPort_timers : (s.setPort k v).timers = s.timers := rfl
@[simp] theorem setPort_gpioIn : (s.setPort k v).gpioIn = s.gpioIn := rfl
@[simp] theorem setPort_rtc : (s.setPort k v).rtc = s.rtc := rfl
@[simp] theorem setPort_otp : (s.setPort k v).otp = s.otp := rfl
@[simp] theorem setPort_jtag : (s.setPort k v).jtag = s.jtag := rfl
@[simp] theorem setPort_reg (b : Nat) : (s.setPort k v).reg b = s.reg b := rfl
@[simp] theorem setPort_unit (b : Nat) : (s.setPort k v).unit b = s.unit b := rfl
@[simp] theorem setPort_req (b : Req) : (s.setPort k v).req b = s.req b := rfl
@[simp] theorem setPort_rail (b : Nat) : (s.setPort k v).rail b = s.rail b := rfl
@[simp] theorem setPort_ldo (b : Nat) : (s.setPort k v).ldo b = s.ldo b := rfl
@[simp] theorem setPort_sup (b : Nat) : (s.setPort k v).sup b = s.sup b := rfl
@[simp] theorem setPort_slot (b : Nat) : (s.setPort k v).slot b = s.slot b := rfl
@[simp] theorem setPort_flt (b : Nat) : (s.setPort k v).flt b = s.flt b := rfl
@[simp] theorem setPort_eng (b : Nat) : (s.setPort k v).eng b = s.eng b := rfl
@[simp] theorem setPort_timer (b : Nat) : (s.setPort k v).timer b = s.timer b := rfl
@[simp] theorem setPort_lane (b : Nat) : (s.setPort k v).lane b = s.lane b := rfl
@[simp] theorem setPort_tap (b : Nat) : (s.setPort k v).tap b = s.tap b := rfl
@[simp] theorem setPort_sramAt (b : Nat) : (s.setPort k v).sramAt b = s.sramAt b := rfl
@[simp] theorem setPort_port_self : (s.setPort k v).port k = v := by simp [State.port, State.setPort]
theorem setPort_port (b : Nat) : (s.setPort k v).port b = if b = k then v else s.port b := by
  simp [State.port, State.setPort, mget_mset]
@[simp] theorem setPort_setPort (w : LcpPort) : (s.setPort k v).setPort k w = s.setPort k w := by simp [State.setPort]

end

-- setSlot

section
variable (s : State) (k : Nat) (v : LcpSlot)

@[simp] theorem setSlot_pending : (s.setSlot k v).pending = s.pending := rfl
@[simp] theorem setSlot_fresh : (s.setSlot k v).fresh = s.fresh := rfl
@[simp] theorem setSlot_boot : (s.setSlot k v).boot = s.boot := rfl
@[simp] theorem setSlot_regs : (s.setSlot k v).regs = s.regs := rfl
@[simp] theorem setSlot_sram : (s.setSlot k v).sram = s.sram := rfl
@[simp] theorem setSlot_units : (s.setSlot k v).units = s.units := rfl
@[simp] theorem setSlot_reqs : (s.setSlot k v).reqs = s.reqs := rfl
@[simp] theorem setSlot_clock : (s.setSlot k v).clock = s.clock := rfl
@[simp] theorem setSlot_supply : (s.setSlot k v).supply = s.supply := rfl
@[simp] theorem setSlot_draught : (s.setSlot k v).draught = s.draught := rfl
@[simp] theorem setSlot_holders : (s.setSlot k v).holders = s.holders := rfl
@[simp] theorem setSlot_ledger : (s.setSlot k v).ledger = s.ledger := rfl
@[simp] theorem setSlot_commitNo : (s.setSlot k v).commitNo = s.commitNo := rfl
@[simp] theorem setSlot_log : (s.setSlot k v).log = s.log := rfl
@[simp] theorem setSlot_logSeq : (s.setSlot k v).logSeq = s.logSeq := rfl
@[simp] theorem setSlot_logLost : (s.setSlot k v).logLost = s.logLost := rfl
@[simp] theorem setSlot_rails : (s.setSlot k v).rails = s.rails := rfl
@[simp] theorem setSlot_ldos : (s.setSlot k v).ldos = s.ldos := rfl
@[simp] theorem setSlot_sups : (s.setSlot k v).sups = s.sups := rfl
@[simp] theorem setSlot_snap : (s.setSlot k v).snap = s.snap := rfl
@[simp] theorem setSlot_recsDue : (s.setSlot k v).recsDue = s.recsDue := rfl
@[simp] theorem setSlot_store : (s.setSlot k v).store = s.store := rfl
@[simp] theorem setSlot_storeSeq : (s.setSlot k v).storeSeq = s.storeSeq := rfl
@[simp] theorem setSlot_seq : (s.setSlot k v).seq = s.seq := rfl
@[simp] theorem setSlot_seqTab : (s.setSlot k v).seqTab = s.seqTab := rfl
@[simp] theorem setSlot_stopN : (s.setSlot k v).stopN = s.stopN := rfl
@[simp] theorem setSlot_errN : (s.setSlot k v).errN = s.errN := rfl
@[simp] theorem setSlot_lcp : (s.setSlot k v).lcp = s.lcp := rfl
@[simp] theorem setSlot_flvl : (s.setSlot k v).flvl = s.flvl := rfl
@[simp] theorem setSlot_fsrc : (s.setSlot k v).fsrc = s.fsrc := rfl
@[simp] theorem setSlot_unack : (s.setSlot k v).unack = s.unack := rfl
@[simp] theorem setSlot_errnHold : (s.setSlot k v).errnHold = s.errnHold := rfl
@[simp] theorem setSlot_occs : (s.setSlot k v).occs = s.occs := rfl
@[simp] theorem setSlot_engs : (s.setSlot k v).engs = s.engs := rfl
@[simp] theorem setSlot_cache : (s.setSlot k v).cache = s.cache := rfl
@[simp] theorem setSlot_irq : (s.setSlot k v).irq = s.irq := rfl
@[simp] theorem setSlot_extLvl : (s.setSlot k v).extLvl = s.extLvl := rfl
@[simp] theorem setSlot_mea : (s.setSlot k v).mea = s.mea := rfl
@[simp] theorem setSlot_ring : (s.setSlot k v).ring = s.ring := rfl
@[simp] theorem setSlot_floor : (s.setSlot k v).floor = s.floor := rfl
@[simp] theorem setSlot_chg : (s.setSlot k v).chg = s.chg := rfl
@[simp] theorem setSlot_sphMode : (s.setSlot k v).sphMode = s.sphMode := rfl
@[simp] theorem setSlot_sphAddr4 : (s.setSlot k v).sphAddr4 = s.sphAddr4 := rfl
@[simp] theorem setSlot_sphCmd : (s.setSlot k v).sphCmd = s.sphCmd := rfl
@[simp] theorem setSlot_sphUse : (s.setSlot k v).sphUse = s.sphUse := rfl
@[simp] theorem setSlot_spt : (s.setSlot k v).spt = s.spt := rfl
@[simp] theorem setSlot_i2ca : (s.setSlot k v).i2ca = s.i2ca := rfl
@[simp] theorem setSlot_i2cb : (s.setSlot k v).i2cb = s.i2cb := rfl
@[simp] theorem setSlot_uart : (s.setSlot k v).uart = s.uart := rfl
@[simp] theorem setSlot_timers : (s.setSlot k v).timers = s.timers := rfl
@[simp] theorem setSlot_gpioIn : (s.setSlot k v).gpioIn = s.gpioIn := rfl
@[simp] theorem setSlot_rtc : (s.setSlot k v).rtc = s.rtc := rfl
@[simp] theorem setSlot_otp : (s.setSlot k v).otp = s.otp := rfl
@[simp] theorem setSlot_jtag : (s.setSlot k v).jtag = s.jtag := rfl
@[simp] theorem setSlot_reg (b : Nat) : (s.setSlot k v).reg b = s.reg b := rfl
@[simp] theorem setSlot_unit (b : Nat) : (s.setSlot k v).unit b = s.unit b := rfl
@[simp] theorem setSlot_req (b : Req) : (s.setSlot k v).req b = s.req b := rfl
@[simp] theorem setSlot_rail (b : Nat) : (s.setSlot k v).rail b = s.rail b := rfl
@[simp] theorem setSlot_ldo (b : Nat) : (s.setSlot k v).ldo b = s.ldo b := rfl
@[simp] theorem setSlot_sup (b : Nat) : (s.setSlot k v).sup b = s.sup b := rfl
@[simp] theorem setSlot_port (b : Nat) : (s.setSlot k v).port b = s.port b := rfl
@[simp] theorem setSlot_flt (b : Nat) : (s.setSlot k v).flt b = s.flt b := rfl
@[simp] theorem setSlot_eng (b : Nat) : (s.setSlot k v).eng b = s.eng b := rfl
@[simp] theorem setSlot_timer (b : Nat) : (s.setSlot k v).timer b = s.timer b := rfl
@[simp] theorem setSlot_lane (b : Nat) : (s.setSlot k v).lane b = s.lane b := rfl
@[simp] theorem setSlot_tap (b : Nat) : (s.setSlot k v).tap b = s.tap b := rfl
@[simp] theorem setSlot_sramAt (b : Nat) : (s.setSlot k v).sramAt b = s.sramAt b := rfl
@[simp] theorem setSlot_slot_self : (s.setSlot k v).slot k = v := by simp [State.slot, State.setSlot]
theorem setSlot_slot (b : Nat) : (s.setSlot k v).slot b = if b = k then v else s.slot b := by
  simp [State.slot, State.setSlot, mget_mset]
@[simp] theorem setSlot_setSlot (w : LcpSlot) : (s.setSlot k v).setSlot k w = s.setSlot k w := by simp [State.setSlot]

end

-- setFlt

section
variable (s : State) (k : Nat) (v : FSrc)

@[simp] theorem setFlt_pending : (s.setFlt k v).pending = s.pending := rfl
@[simp] theorem setFlt_fresh : (s.setFlt k v).fresh = s.fresh := rfl
@[simp] theorem setFlt_boot : (s.setFlt k v).boot = s.boot := rfl
@[simp] theorem setFlt_regs : (s.setFlt k v).regs = s.regs := rfl
@[simp] theorem setFlt_sram : (s.setFlt k v).sram = s.sram := rfl
@[simp] theorem setFlt_units : (s.setFlt k v).units = s.units := rfl
@[simp] theorem setFlt_reqs : (s.setFlt k v).reqs = s.reqs := rfl
@[simp] theorem setFlt_clock : (s.setFlt k v).clock = s.clock := rfl
@[simp] theorem setFlt_supply : (s.setFlt k v).supply = s.supply := rfl
@[simp] theorem setFlt_draught : (s.setFlt k v).draught = s.draught := rfl
@[simp] theorem setFlt_holders : (s.setFlt k v).holders = s.holders := rfl
@[simp] theorem setFlt_ledger : (s.setFlt k v).ledger = s.ledger := rfl
@[simp] theorem setFlt_commitNo : (s.setFlt k v).commitNo = s.commitNo := rfl
@[simp] theorem setFlt_log : (s.setFlt k v).log = s.log := rfl
@[simp] theorem setFlt_logSeq : (s.setFlt k v).logSeq = s.logSeq := rfl
@[simp] theorem setFlt_logLost : (s.setFlt k v).logLost = s.logLost := rfl
@[simp] theorem setFlt_rails : (s.setFlt k v).rails = s.rails := rfl
@[simp] theorem setFlt_ldos : (s.setFlt k v).ldos = s.ldos := rfl
@[simp] theorem setFlt_sups : (s.setFlt k v).sups = s.sups := rfl
@[simp] theorem setFlt_snap : (s.setFlt k v).snap = s.snap := rfl
@[simp] theorem setFlt_recsDue : (s.setFlt k v).recsDue = s.recsDue := rfl
@[simp] theorem setFlt_store : (s.setFlt k v).store = s.store := rfl
@[simp] theorem setFlt_storeSeq : (s.setFlt k v).storeSeq = s.storeSeq := rfl
@[simp] theorem setFlt_seq : (s.setFlt k v).seq = s.seq := rfl
@[simp] theorem setFlt_seqTab : (s.setFlt k v).seqTab = s.seqTab := rfl
@[simp] theorem setFlt_stopN : (s.setFlt k v).stopN = s.stopN := rfl
@[simp] theorem setFlt_errN : (s.setFlt k v).errN = s.errN := rfl
@[simp] theorem setFlt_lcp : (s.setFlt k v).lcp = s.lcp := rfl
@[simp] theorem setFlt_slots : (s.setFlt k v).slots = s.slots := rfl
@[simp] theorem setFlt_flvl : (s.setFlt k v).flvl = s.flvl := rfl
@[simp] theorem setFlt_unack : (s.setFlt k v).unack = s.unack := rfl
@[simp] theorem setFlt_errnHold : (s.setFlt k v).errnHold = s.errnHold := rfl
@[simp] theorem setFlt_occs : (s.setFlt k v).occs = s.occs := rfl
@[simp] theorem setFlt_engs : (s.setFlt k v).engs = s.engs := rfl
@[simp] theorem setFlt_cache : (s.setFlt k v).cache = s.cache := rfl
@[simp] theorem setFlt_irq : (s.setFlt k v).irq = s.irq := rfl
@[simp] theorem setFlt_extLvl : (s.setFlt k v).extLvl = s.extLvl := rfl
@[simp] theorem setFlt_mea : (s.setFlt k v).mea = s.mea := rfl
@[simp] theorem setFlt_ring : (s.setFlt k v).ring = s.ring := rfl
@[simp] theorem setFlt_floor : (s.setFlt k v).floor = s.floor := rfl
@[simp] theorem setFlt_chg : (s.setFlt k v).chg = s.chg := rfl
@[simp] theorem setFlt_sphMode : (s.setFlt k v).sphMode = s.sphMode := rfl
@[simp] theorem setFlt_sphAddr4 : (s.setFlt k v).sphAddr4 = s.sphAddr4 := rfl
@[simp] theorem setFlt_sphCmd : (s.setFlt k v).sphCmd = s.sphCmd := rfl
@[simp] theorem setFlt_sphUse : (s.setFlt k v).sphUse = s.sphUse := rfl
@[simp] theorem setFlt_spt : (s.setFlt k v).spt = s.spt := rfl
@[simp] theorem setFlt_i2ca : (s.setFlt k v).i2ca = s.i2ca := rfl
@[simp] theorem setFlt_i2cb : (s.setFlt k v).i2cb = s.i2cb := rfl
@[simp] theorem setFlt_uart : (s.setFlt k v).uart = s.uart := rfl
@[simp] theorem setFlt_timers : (s.setFlt k v).timers = s.timers := rfl
@[simp] theorem setFlt_gpioIn : (s.setFlt k v).gpioIn = s.gpioIn := rfl
@[simp] theorem setFlt_rtc : (s.setFlt k v).rtc = s.rtc := rfl
@[simp] theorem setFlt_otp : (s.setFlt k v).otp = s.otp := rfl
@[simp] theorem setFlt_jtag : (s.setFlt k v).jtag = s.jtag := rfl
@[simp] theorem setFlt_reg (b : Nat) : (s.setFlt k v).reg b = s.reg b := rfl
@[simp] theorem setFlt_unit (b : Nat) : (s.setFlt k v).unit b = s.unit b := rfl
@[simp] theorem setFlt_req (b : Req) : (s.setFlt k v).req b = s.req b := rfl
@[simp] theorem setFlt_rail (b : Nat) : (s.setFlt k v).rail b = s.rail b := rfl
@[simp] theorem setFlt_ldo (b : Nat) : (s.setFlt k v).ldo b = s.ldo b := rfl
@[simp] theorem setFlt_sup (b : Nat) : (s.setFlt k v).sup b = s.sup b := rfl
@[simp] theorem setFlt_port (b : Nat) : (s.setFlt k v).port b = s.port b := rfl
@[simp] theorem setFlt_slot (b : Nat) : (s.setFlt k v).slot b = s.slot b := rfl
@[simp] theorem setFlt_eng (b : Nat) : (s.setFlt k v).eng b = s.eng b := rfl
@[simp] theorem setFlt_timer (b : Nat) : (s.setFlt k v).timer b = s.timer b := rfl
@[simp] theorem setFlt_lane (b : Nat) : (s.setFlt k v).lane b = s.lane b := rfl
@[simp] theorem setFlt_tap (b : Nat) : (s.setFlt k v).tap b = s.tap b := rfl
@[simp] theorem setFlt_sramAt (b : Nat) : (s.setFlt k v).sramAt b = s.sramAt b := rfl
@[simp] theorem setFlt_flt_self : (s.setFlt k v).flt k = v := by simp [State.flt, State.setFlt]
theorem setFlt_flt (b : Nat) : (s.setFlt k v).flt b = if b = k then v else s.flt b := by
  simp [State.flt, State.setFlt, mget_mset]
@[simp] theorem setFlt_setFlt (w : FSrc) : (s.setFlt k v).setFlt k w = s.setFlt k w := by simp [State.setFlt]

end

-- setEng

section
variable (s : State) (k : Nat) (v : Eng)

@[simp] theorem setEng_pending : (s.setEng k v).pending = s.pending := rfl
@[simp] theorem setEng_fresh : (s.setEng k v).fresh = s.fresh := rfl
@[simp] theorem setEng_boot : (s.setEng k v).boot = s.boot := rfl
@[simp] theorem setEng_regs : (s.setEng k v).regs = s.regs := rfl
@[simp] theorem setEng_sram : (s.setEng k v).sram = s.sram := rfl
@[simp] theorem setEng_units : (s.setEng k v).units = s.units := rfl
@[simp] theorem setEng_reqs : (s.setEng k v).reqs = s.reqs := rfl
@[simp] theorem setEng_clock : (s.setEng k v).clock = s.clock := rfl
@[simp] theorem setEng_supply : (s.setEng k v).supply = s.supply := rfl
@[simp] theorem setEng_draught : (s.setEng k v).draught = s.draught := rfl
@[simp] theorem setEng_holders : (s.setEng k v).holders = s.holders := rfl
@[simp] theorem setEng_ledger : (s.setEng k v).ledger = s.ledger := rfl
@[simp] theorem setEng_commitNo : (s.setEng k v).commitNo = s.commitNo := rfl
@[simp] theorem setEng_log : (s.setEng k v).log = s.log := rfl
@[simp] theorem setEng_logSeq : (s.setEng k v).logSeq = s.logSeq := rfl
@[simp] theorem setEng_logLost : (s.setEng k v).logLost = s.logLost := rfl
@[simp] theorem setEng_rails : (s.setEng k v).rails = s.rails := rfl
@[simp] theorem setEng_ldos : (s.setEng k v).ldos = s.ldos := rfl
@[simp] theorem setEng_sups : (s.setEng k v).sups = s.sups := rfl
@[simp] theorem setEng_snap : (s.setEng k v).snap = s.snap := rfl
@[simp] theorem setEng_recsDue : (s.setEng k v).recsDue = s.recsDue := rfl
@[simp] theorem setEng_store : (s.setEng k v).store = s.store := rfl
@[simp] theorem setEng_storeSeq : (s.setEng k v).storeSeq = s.storeSeq := rfl
@[simp] theorem setEng_seq : (s.setEng k v).seq = s.seq := rfl
@[simp] theorem setEng_seqTab : (s.setEng k v).seqTab = s.seqTab := rfl
@[simp] theorem setEng_stopN : (s.setEng k v).stopN = s.stopN := rfl
@[simp] theorem setEng_errN : (s.setEng k v).errN = s.errN := rfl
@[simp] theorem setEng_lcp : (s.setEng k v).lcp = s.lcp := rfl
@[simp] theorem setEng_slots : (s.setEng k v).slots = s.slots := rfl
@[simp] theorem setEng_flvl : (s.setEng k v).flvl = s.flvl := rfl
@[simp] theorem setEng_fsrc : (s.setEng k v).fsrc = s.fsrc := rfl
@[simp] theorem setEng_unack : (s.setEng k v).unack = s.unack := rfl
@[simp] theorem setEng_errnHold : (s.setEng k v).errnHold = s.errnHold := rfl
@[simp] theorem setEng_occs : (s.setEng k v).occs = s.occs := rfl
@[simp] theorem setEng_cache : (s.setEng k v).cache = s.cache := rfl
@[simp] theorem setEng_irq : (s.setEng k v).irq = s.irq := rfl
@[simp] theorem setEng_extLvl : (s.setEng k v).extLvl = s.extLvl := rfl
@[simp] theorem setEng_mea : (s.setEng k v).mea = s.mea := rfl
@[simp] theorem setEng_ring : (s.setEng k v).ring = s.ring := rfl
@[simp] theorem setEng_floor : (s.setEng k v).floor = s.floor := rfl
@[simp] theorem setEng_chg : (s.setEng k v).chg = s.chg := rfl
@[simp] theorem setEng_sphMode : (s.setEng k v).sphMode = s.sphMode := rfl
@[simp] theorem setEng_sphAddr4 : (s.setEng k v).sphAddr4 = s.sphAddr4 := rfl
@[simp] theorem setEng_sphCmd : (s.setEng k v).sphCmd = s.sphCmd := rfl
@[simp] theorem setEng_sphUse : (s.setEng k v).sphUse = s.sphUse := rfl
@[simp] theorem setEng_spt : (s.setEng k v).spt = s.spt := rfl
@[simp] theorem setEng_i2ca : (s.setEng k v).i2ca = s.i2ca := rfl
@[simp] theorem setEng_i2cb : (s.setEng k v).i2cb = s.i2cb := rfl
@[simp] theorem setEng_uart : (s.setEng k v).uart = s.uart := rfl
@[simp] theorem setEng_timers : (s.setEng k v).timers = s.timers := rfl
@[simp] theorem setEng_gpioIn : (s.setEng k v).gpioIn = s.gpioIn := rfl
@[simp] theorem setEng_rtc : (s.setEng k v).rtc = s.rtc := rfl
@[simp] theorem setEng_otp : (s.setEng k v).otp = s.otp := rfl
@[simp] theorem setEng_jtag : (s.setEng k v).jtag = s.jtag := rfl
@[simp] theorem setEng_reg (b : Nat) : (s.setEng k v).reg b = s.reg b := rfl
@[simp] theorem setEng_unit (b : Nat) : (s.setEng k v).unit b = s.unit b := rfl
@[simp] theorem setEng_req (b : Req) : (s.setEng k v).req b = s.req b := rfl
@[simp] theorem setEng_rail (b : Nat) : (s.setEng k v).rail b = s.rail b := rfl
@[simp] theorem setEng_ldo (b : Nat) : (s.setEng k v).ldo b = s.ldo b := rfl
@[simp] theorem setEng_sup (b : Nat) : (s.setEng k v).sup b = s.sup b := rfl
@[simp] theorem setEng_port (b : Nat) : (s.setEng k v).port b = s.port b := rfl
@[simp] theorem setEng_slot (b : Nat) : (s.setEng k v).slot b = s.slot b := rfl
@[simp] theorem setEng_flt (b : Nat) : (s.setEng k v).flt b = s.flt b := rfl
@[simp] theorem setEng_timer (b : Nat) : (s.setEng k v).timer b = s.timer b := rfl
@[simp] theorem setEng_lane (b : Nat) : (s.setEng k v).lane b = s.lane b := rfl
@[simp] theorem setEng_tap (b : Nat) : (s.setEng k v).tap b = s.tap b := rfl
@[simp] theorem setEng_sramAt (b : Nat) : (s.setEng k v).sramAt b = s.sramAt b := rfl
@[simp] theorem setEng_eng_self : (s.setEng k v).eng k = v := by simp [State.eng, State.setEng]
theorem setEng_eng (b : Nat) : (s.setEng k v).eng b = if b = k then v else s.eng b := by
  simp [State.eng, State.setEng, mget_mset]
@[simp] theorem setEng_setEng (w : Eng) : (s.setEng k v).setEng k w = s.setEng k w := by simp [State.setEng]

end

-- setTimer

section
variable (s : State) (k : Nat) (v : Timer)

@[simp] theorem setTimer_pending : (s.setTimer k v).pending = s.pending := rfl
@[simp] theorem setTimer_fresh : (s.setTimer k v).fresh = s.fresh := rfl
@[simp] theorem setTimer_boot : (s.setTimer k v).boot = s.boot := rfl
@[simp] theorem setTimer_regs : (s.setTimer k v).regs = s.regs := rfl
@[simp] theorem setTimer_sram : (s.setTimer k v).sram = s.sram := rfl
@[simp] theorem setTimer_units : (s.setTimer k v).units = s.units := rfl
@[simp] theorem setTimer_reqs : (s.setTimer k v).reqs = s.reqs := rfl
@[simp] theorem setTimer_clock : (s.setTimer k v).clock = s.clock := rfl
@[simp] theorem setTimer_supply : (s.setTimer k v).supply = s.supply := rfl
@[simp] theorem setTimer_draught : (s.setTimer k v).draught = s.draught := rfl
@[simp] theorem setTimer_holders : (s.setTimer k v).holders = s.holders := rfl
@[simp] theorem setTimer_ledger : (s.setTimer k v).ledger = s.ledger := rfl
@[simp] theorem setTimer_commitNo : (s.setTimer k v).commitNo = s.commitNo := rfl
@[simp] theorem setTimer_log : (s.setTimer k v).log = s.log := rfl
@[simp] theorem setTimer_logSeq : (s.setTimer k v).logSeq = s.logSeq := rfl
@[simp] theorem setTimer_logLost : (s.setTimer k v).logLost = s.logLost := rfl
@[simp] theorem setTimer_rails : (s.setTimer k v).rails = s.rails := rfl
@[simp] theorem setTimer_ldos : (s.setTimer k v).ldos = s.ldos := rfl
@[simp] theorem setTimer_sups : (s.setTimer k v).sups = s.sups := rfl
@[simp] theorem setTimer_snap : (s.setTimer k v).snap = s.snap := rfl
@[simp] theorem setTimer_recsDue : (s.setTimer k v).recsDue = s.recsDue := rfl
@[simp] theorem setTimer_store : (s.setTimer k v).store = s.store := rfl
@[simp] theorem setTimer_storeSeq : (s.setTimer k v).storeSeq = s.storeSeq := rfl
@[simp] theorem setTimer_seq : (s.setTimer k v).seq = s.seq := rfl
@[simp] theorem setTimer_seqTab : (s.setTimer k v).seqTab = s.seqTab := rfl
@[simp] theorem setTimer_stopN : (s.setTimer k v).stopN = s.stopN := rfl
@[simp] theorem setTimer_errN : (s.setTimer k v).errN = s.errN := rfl
@[simp] theorem setTimer_lcp : (s.setTimer k v).lcp = s.lcp := rfl
@[simp] theorem setTimer_slots : (s.setTimer k v).slots = s.slots := rfl
@[simp] theorem setTimer_flvl : (s.setTimer k v).flvl = s.flvl := rfl
@[simp] theorem setTimer_fsrc : (s.setTimer k v).fsrc = s.fsrc := rfl
@[simp] theorem setTimer_unack : (s.setTimer k v).unack = s.unack := rfl
@[simp] theorem setTimer_errnHold : (s.setTimer k v).errnHold = s.errnHold := rfl
@[simp] theorem setTimer_occs : (s.setTimer k v).occs = s.occs := rfl
@[simp] theorem setTimer_engs : (s.setTimer k v).engs = s.engs := rfl
@[simp] theorem setTimer_cache : (s.setTimer k v).cache = s.cache := rfl
@[simp] theorem setTimer_irq : (s.setTimer k v).irq = s.irq := rfl
@[simp] theorem setTimer_extLvl : (s.setTimer k v).extLvl = s.extLvl := rfl
@[simp] theorem setTimer_mea : (s.setTimer k v).mea = s.mea := rfl
@[simp] theorem setTimer_ring : (s.setTimer k v).ring = s.ring := rfl
@[simp] theorem setTimer_floor : (s.setTimer k v).floor = s.floor := rfl
@[simp] theorem setTimer_chg : (s.setTimer k v).chg = s.chg := rfl
@[simp] theorem setTimer_sphMode : (s.setTimer k v).sphMode = s.sphMode := rfl
@[simp] theorem setTimer_sphAddr4 : (s.setTimer k v).sphAddr4 = s.sphAddr4 := rfl
@[simp] theorem setTimer_sphCmd : (s.setTimer k v).sphCmd = s.sphCmd := rfl
@[simp] theorem setTimer_sphUse : (s.setTimer k v).sphUse = s.sphUse := rfl
@[simp] theorem setTimer_spt : (s.setTimer k v).spt = s.spt := rfl
@[simp] theorem setTimer_i2ca : (s.setTimer k v).i2ca = s.i2ca := rfl
@[simp] theorem setTimer_i2cb : (s.setTimer k v).i2cb = s.i2cb := rfl
@[simp] theorem setTimer_uart : (s.setTimer k v).uart = s.uart := rfl
@[simp] theorem setTimer_gpioIn : (s.setTimer k v).gpioIn = s.gpioIn := rfl
@[simp] theorem setTimer_rtc : (s.setTimer k v).rtc = s.rtc := rfl
@[simp] theorem setTimer_otp : (s.setTimer k v).otp = s.otp := rfl
@[simp] theorem setTimer_jtag : (s.setTimer k v).jtag = s.jtag := rfl
@[simp] theorem setTimer_reg (b : Nat) : (s.setTimer k v).reg b = s.reg b := rfl
@[simp] theorem setTimer_unit (b : Nat) : (s.setTimer k v).unit b = s.unit b := rfl
@[simp] theorem setTimer_req (b : Req) : (s.setTimer k v).req b = s.req b := rfl
@[simp] theorem setTimer_rail (b : Nat) : (s.setTimer k v).rail b = s.rail b := rfl
@[simp] theorem setTimer_ldo (b : Nat) : (s.setTimer k v).ldo b = s.ldo b := rfl
@[simp] theorem setTimer_sup (b : Nat) : (s.setTimer k v).sup b = s.sup b := rfl
@[simp] theorem setTimer_port (b : Nat) : (s.setTimer k v).port b = s.port b := rfl
@[simp] theorem setTimer_slot (b : Nat) : (s.setTimer k v).slot b = s.slot b := rfl
@[simp] theorem setTimer_flt (b : Nat) : (s.setTimer k v).flt b = s.flt b := rfl
@[simp] theorem setTimer_eng (b : Nat) : (s.setTimer k v).eng b = s.eng b := rfl
@[simp] theorem setTimer_lane (b : Nat) : (s.setTimer k v).lane b = s.lane b := rfl
@[simp] theorem setTimer_tap (b : Nat) : (s.setTimer k v).tap b = s.tap b := rfl
@[simp] theorem setTimer_sramAt (b : Nat) : (s.setTimer k v).sramAt b = s.sramAt b := rfl
@[simp] theorem setTimer_timer_self : (s.setTimer k v).timer k = v := by simp [State.timer, State.setTimer]
theorem setTimer_timer (b : Nat) : (s.setTimer k v).timer b = if b = k then v else s.timer b := by
  simp [State.timer, State.setTimer, mget_mset]
@[simp] theorem setTimer_setTimer (w : Timer) : (s.setTimer k v).setTimer k w = s.setTimer k w := by simp [State.setTimer]

end

-- setLane

section
variable (s : State) (k : Nat) (v : Lane)

@[simp] theorem setLane_pending : (s.setLane k v).pending = s.pending := rfl
@[simp] theorem setLane_fresh : (s.setLane k v).fresh = s.fresh := rfl
@[simp] theorem setLane_boot : (s.setLane k v).boot = s.boot := rfl
@[simp] theorem setLane_regs : (s.setLane k v).regs = s.regs := rfl
@[simp] theorem setLane_sram : (s.setLane k v).sram = s.sram := rfl
@[simp] theorem setLane_units : (s.setLane k v).units = s.units := rfl
@[simp] theorem setLane_reqs : (s.setLane k v).reqs = s.reqs := rfl
@[simp] theorem setLane_clock : (s.setLane k v).clock = s.clock := rfl
@[simp] theorem setLane_supply : (s.setLane k v).supply = s.supply := rfl
@[simp] theorem setLane_draught : (s.setLane k v).draught = s.draught := rfl
@[simp] theorem setLane_holders : (s.setLane k v).holders = s.holders := rfl
@[simp] theorem setLane_ledger : (s.setLane k v).ledger = s.ledger := rfl
@[simp] theorem setLane_commitNo : (s.setLane k v).commitNo = s.commitNo := rfl
@[simp] theorem setLane_log : (s.setLane k v).log = s.log := rfl
@[simp] theorem setLane_logSeq : (s.setLane k v).logSeq = s.logSeq := rfl
@[simp] theorem setLane_logLost : (s.setLane k v).logLost = s.logLost := rfl
@[simp] theorem setLane_rails : (s.setLane k v).rails = s.rails := rfl
@[simp] theorem setLane_ldos : (s.setLane k v).ldos = s.ldos := rfl
@[simp] theorem setLane_sups : (s.setLane k v).sups = s.sups := rfl
@[simp] theorem setLane_snap : (s.setLane k v).snap = s.snap := rfl
@[simp] theorem setLane_recsDue : (s.setLane k v).recsDue = s.recsDue := rfl
@[simp] theorem setLane_store : (s.setLane k v).store = s.store := rfl
@[simp] theorem setLane_storeSeq : (s.setLane k v).storeSeq = s.storeSeq := rfl
@[simp] theorem setLane_seq : (s.setLane k v).seq = s.seq := rfl
@[simp] theorem setLane_seqTab : (s.setLane k v).seqTab = s.seqTab := rfl
@[simp] theorem setLane_stopN : (s.setLane k v).stopN = s.stopN := rfl
@[simp] theorem setLane_errN : (s.setLane k v).errN = s.errN := rfl
@[simp] theorem setLane_lcp : (s.setLane k v).lcp = s.lcp := rfl
@[simp] theorem setLane_slots : (s.setLane k v).slots = s.slots := rfl
@[simp] theorem setLane_flvl : (s.setLane k v).flvl = s.flvl := rfl
@[simp] theorem setLane_fsrc : (s.setLane k v).fsrc = s.fsrc := rfl
@[simp] theorem setLane_unack : (s.setLane k v).unack = s.unack := rfl
@[simp] theorem setLane_errnHold : (s.setLane k v).errnHold = s.errnHold := rfl
@[simp] theorem setLane_occs : (s.setLane k v).occs = s.occs := rfl
@[simp] theorem setLane_engs : (s.setLane k v).engs = s.engs := rfl
@[simp] theorem setLane_cache : (s.setLane k v).cache = s.cache := rfl
@[simp] theorem setLane_irq : (s.setLane k v).irq = s.irq := rfl
@[simp] theorem setLane_extLvl : (s.setLane k v).extLvl = s.extLvl := rfl
@[simp] theorem setLane_mea : (s.setLane k v).mea = s.mea := rfl
@[simp] theorem setLane_floor : (s.setLane k v).floor = s.floor := rfl
@[simp] theorem setLane_chg : (s.setLane k v).chg = s.chg := rfl
@[simp] theorem setLane_sphMode : (s.setLane k v).sphMode = s.sphMode := rfl
@[simp] theorem setLane_sphAddr4 : (s.setLane k v).sphAddr4 = s.sphAddr4 := rfl
@[simp] theorem setLane_sphCmd : (s.setLane k v).sphCmd = s.sphCmd := rfl
@[simp] theorem setLane_sphUse : (s.setLane k v).sphUse = s.sphUse := rfl
@[simp] theorem setLane_spt : (s.setLane k v).spt = s.spt := rfl
@[simp] theorem setLane_i2ca : (s.setLane k v).i2ca = s.i2ca := rfl
@[simp] theorem setLane_i2cb : (s.setLane k v).i2cb = s.i2cb := rfl
@[simp] theorem setLane_uart : (s.setLane k v).uart = s.uart := rfl
@[simp] theorem setLane_timers : (s.setLane k v).timers = s.timers := rfl
@[simp] theorem setLane_gpioIn : (s.setLane k v).gpioIn = s.gpioIn := rfl
@[simp] theorem setLane_rtc : (s.setLane k v).rtc = s.rtc := rfl
@[simp] theorem setLane_otp : (s.setLane k v).otp = s.otp := rfl
@[simp] theorem setLane_jtag : (s.setLane k v).jtag = s.jtag := rfl
@[simp] theorem setLane_reg (b : Nat) : (s.setLane k v).reg b = s.reg b := rfl
@[simp] theorem setLane_unit (b : Nat) : (s.setLane k v).unit b = s.unit b := rfl
@[simp] theorem setLane_req (b : Req) : (s.setLane k v).req b = s.req b := rfl
@[simp] theorem setLane_rail (b : Nat) : (s.setLane k v).rail b = s.rail b := rfl
@[simp] theorem setLane_ldo (b : Nat) : (s.setLane k v).ldo b = s.ldo b := rfl
@[simp] theorem setLane_sup (b : Nat) : (s.setLane k v).sup b = s.sup b := rfl
@[simp] theorem setLane_port (b : Nat) : (s.setLane k v).port b = s.port b := rfl
@[simp] theorem setLane_slot (b : Nat) : (s.setLane k v).slot b = s.slot b := rfl
@[simp] theorem setLane_flt (b : Nat) : (s.setLane k v).flt b = s.flt b := rfl
@[simp] theorem setLane_eng (b : Nat) : (s.setLane k v).eng b = s.eng b := rfl
@[simp] theorem setLane_timer (b : Nat) : (s.setLane k v).timer b = s.timer b := rfl
@[simp] theorem setLane_tap (b : Nat) : (s.setLane k v).tap b = s.tap b := rfl
@[simp] theorem setLane_sramAt (b : Nat) : (s.setLane k v).sramAt b = s.sramAt b := rfl
@[simp] theorem setLane_lane_self : (s.setLane k v).lane k = v := by simp [State.lane, State.setLane]
theorem setLane_lane (b : Nat) : (s.setLane k v).lane b = if b = k then v else s.lane b := by
  simp [State.lane, State.setLane, mget_mset]
@[simp] theorem setLane_setLane (w : Lane) : (s.setLane k v).setLane k w = s.setLane k w := by simp [State.setLane]

end

-- setTap

section
variable (s : State) (k : Nat) (v : Option Tap)

@[simp] theorem setTap_pending : (s.setTap k v).pending = s.pending := rfl
@[simp] theorem setTap_fresh : (s.setTap k v).fresh = s.fresh := rfl
@[simp] theorem setTap_boot : (s.setTap k v).boot = s.boot := rfl
@[simp] theorem setTap_regs : (s.setTap k v).regs = s.regs := rfl
@[simp] theorem setTap_sram : (s.setTap k v).sram = s.sram := rfl
@[simp] theorem setTap_units : (s.setTap k v).units = s.units := rfl
@[simp] theorem setTap_reqs : (s.setTap k v).reqs = s.reqs := rfl
@[simp] theorem setTap_clock : (s.setTap k v).clock = s.clock := rfl
@[simp] theorem setTap_supply : (s.setTap k v).supply = s.supply := rfl
@[simp] theorem setTap_draught : (s.setTap k v).draught = s.draught := rfl
@[simp] theorem setTap_holders : (s.setTap k v).holders = s.holders := rfl
@[simp] theorem setTap_ledger : (s.setTap k v).ledger = s.ledger := rfl
@[simp] theorem setTap_commitNo : (s.setTap k v).commitNo = s.commitNo := rfl
@[simp] theorem setTap_log : (s.setTap k v).log = s.log := rfl
@[simp] theorem setTap_logSeq : (s.setTap k v).logSeq = s.logSeq := rfl
@[simp] theorem setTap_logLost : (s.setTap k v).logLost = s.logLost := rfl
@[simp] theorem setTap_rails : (s.setTap k v).rails = s.rails := rfl
@[simp] theorem setTap_ldos : (s.setTap k v).ldos = s.ldos := rfl
@[simp] theorem setTap_sups : (s.setTap k v).sups = s.sups := rfl
@[simp] theorem setTap_snap : (s.setTap k v).snap = s.snap := rfl
@[simp] theorem setTap_recsDue : (s.setTap k v).recsDue = s.recsDue := rfl
@[simp] theorem setTap_store : (s.setTap k v).store = s.store := rfl
@[simp] theorem setTap_storeSeq : (s.setTap k v).storeSeq = s.storeSeq := rfl
@[simp] theorem setTap_seq : (s.setTap k v).seq = s.seq := rfl
@[simp] theorem setTap_seqTab : (s.setTap k v).seqTab = s.seqTab := rfl
@[simp] theorem setTap_stopN : (s.setTap k v).stopN = s.stopN := rfl
@[simp] theorem setTap_errN : (s.setTap k v).errN = s.errN := rfl
@[simp] theorem setTap_lcp : (s.setTap k v).lcp = s.lcp := rfl
@[simp] theorem setTap_slots : (s.setTap k v).slots = s.slots := rfl
@[simp] theorem setTap_flvl : (s.setTap k v).flvl = s.flvl := rfl
@[simp] theorem setTap_fsrc : (s.setTap k v).fsrc = s.fsrc := rfl
@[simp] theorem setTap_unack : (s.setTap k v).unack = s.unack := rfl
@[simp] theorem setTap_errnHold : (s.setTap k v).errnHold = s.errnHold := rfl
@[simp] theorem setTap_occs : (s.setTap k v).occs = s.occs := rfl
@[simp] theorem setTap_engs : (s.setTap k v).engs = s.engs := rfl
@[simp] theorem setTap_cache : (s.setTap k v).cache = s.cache := rfl
@[simp] theorem setTap_irq : (s.setTap k v).irq = s.irq := rfl
@[simp] theorem setTap_extLvl : (s.setTap k v).extLvl = s.extLvl := rfl
@[simp] theorem setTap_ring : (s.setTap k v).ring = s.ring := rfl
@[simp] theorem setTap_floor : (s.setTap k v).floor = s.floor := rfl
@[simp] theorem setTap_chg : (s.setTap k v).chg = s.chg := rfl
@[simp] theorem setTap_sphMode : (s.setTap k v).sphMode = s.sphMode := rfl
@[simp] theorem setTap_sphAddr4 : (s.setTap k v).sphAddr4 = s.sphAddr4 := rfl
@[simp] theorem setTap_sphCmd : (s.setTap k v).sphCmd = s.sphCmd := rfl
@[simp] theorem setTap_sphUse : (s.setTap k v).sphUse = s.sphUse := rfl
@[simp] theorem setTap_spt : (s.setTap k v).spt = s.spt := rfl
@[simp] theorem setTap_i2ca : (s.setTap k v).i2ca = s.i2ca := rfl
@[simp] theorem setTap_i2cb : (s.setTap k v).i2cb = s.i2cb := rfl
@[simp] theorem setTap_uart : (s.setTap k v).uart = s.uart := rfl
@[simp] theorem setTap_timers : (s.setTap k v).timers = s.timers := rfl
@[simp] theorem setTap_gpioIn : (s.setTap k v).gpioIn = s.gpioIn := rfl
@[simp] theorem setTap_rtc : (s.setTap k v).rtc = s.rtc := rfl
@[simp] theorem setTap_otp : (s.setTap k v).otp = s.otp := rfl
@[simp] theorem setTap_jtag : (s.setTap k v).jtag = s.jtag := rfl
@[simp] theorem setTap_reg (b : Nat) : (s.setTap k v).reg b = s.reg b := rfl
@[simp] theorem setTap_unit (b : Nat) : (s.setTap k v).unit b = s.unit b := rfl
@[simp] theorem setTap_req (b : Req) : (s.setTap k v).req b = s.req b := rfl
@[simp] theorem setTap_rail (b : Nat) : (s.setTap k v).rail b = s.rail b := rfl
@[simp] theorem setTap_ldo (b : Nat) : (s.setTap k v).ldo b = s.ldo b := rfl
@[simp] theorem setTap_sup (b : Nat) : (s.setTap k v).sup b = s.sup b := rfl
@[simp] theorem setTap_port (b : Nat) : (s.setTap k v).port b = s.port b := rfl
@[simp] theorem setTap_slot (b : Nat) : (s.setTap k v).slot b = s.slot b := rfl
@[simp] theorem setTap_flt (b : Nat) : (s.setTap k v).flt b = s.flt b := rfl
@[simp] theorem setTap_eng (b : Nat) : (s.setTap k v).eng b = s.eng b := rfl
@[simp] theorem setTap_timer (b : Nat) : (s.setTap k v).timer b = s.timer b := rfl
@[simp] theorem setTap_lane (b : Nat) : (s.setTap k v).lane b = s.lane b := rfl
@[simp] theorem setTap_sramAt (b : Nat) : (s.setTap k v).sramAt b = s.sramAt b := rfl
@[simp] theorem setTap_tap_self : (s.setTap k v).tap k = v := by simp [State.tap, State.setTap]
theorem setTap_tap (b : Nat) : (s.setTap k v).tap b = if b = k then v else s.tap b := by
  simp [State.tap, State.setTap, mget_mset]
@[simp] theorem setTap_setTap (w : Option Tap) : (s.setTap k v).setTap k w = s.setTap k w := by simp [State.setTap]

end

-- setSram

section
variable (s : State) (k : Nat) (v : Word)

@[simp] theorem setSram_pending : (s.setSram k v).pending = s.pending := rfl
@[simp] theorem setSram_fresh : (s.setSram k v).fresh = s.fresh := rfl
@[simp] theorem setSram_boot : (s.setSram k v).boot = s.boot := rfl
@[simp] theorem setSram_regs : (s.setSram k v).regs = s.regs := rfl
@[simp] theorem setSram_units : (s.setSram k v).units = s.units := rfl
@[simp] theorem setSram_reqs : (s.setSram k v).reqs = s.reqs := rfl
@[simp] theorem setSram_clock : (s.setSram k v).clock = s.clock := rfl
@[simp] theorem setSram_supply : (s.setSram k v).supply = s.supply := rfl
@[simp] theorem setSram_draught : (s.setSram k v).draught = s.draught := rfl
@[simp] theorem setSram_holders : (s.setSram k v).holders = s.holders := rfl
@[simp] theorem setSram_ledger : (s.setSram k v).ledger = s.ledger := rfl
@[simp] theorem setSram_commitNo : (s.setSram k v).commitNo = s.commitNo := rfl
@[simp] theorem setSram_log : (s.setSram k v).log = s.log := rfl
@[simp] theorem setSram_logSeq : (s.setSram k v).logSeq = s.logSeq := rfl
@[simp] theorem setSram_logLost : (s.setSram k v).logLost = s.logLost := rfl
@[simp] theorem setSram_rails : (s.setSram k v).rails = s.rails := rfl
@[simp] theorem setSram_ldos : (s.setSram k v).ldos = s.ldos := rfl
@[simp] theorem setSram_sups : (s.setSram k v).sups = s.sups := rfl
@[simp] theorem setSram_snap : (s.setSram k v).snap = s.snap := rfl
@[simp] theorem setSram_recsDue : (s.setSram k v).recsDue = s.recsDue := rfl
@[simp] theorem setSram_store : (s.setSram k v).store = s.store := rfl
@[simp] theorem setSram_storeSeq : (s.setSram k v).storeSeq = s.storeSeq := rfl
@[simp] theorem setSram_seq : (s.setSram k v).seq = s.seq := rfl
@[simp] theorem setSram_seqTab : (s.setSram k v).seqTab = s.seqTab := rfl
@[simp] theorem setSram_stopN : (s.setSram k v).stopN = s.stopN := rfl
@[simp] theorem setSram_errN : (s.setSram k v).errN = s.errN := rfl
@[simp] theorem setSram_lcp : (s.setSram k v).lcp = s.lcp := rfl
@[simp] theorem setSram_slots : (s.setSram k v).slots = s.slots := rfl
@[simp] theorem setSram_flvl : (s.setSram k v).flvl = s.flvl := rfl
@[simp] theorem setSram_fsrc : (s.setSram k v).fsrc = s.fsrc := rfl
@[simp] theorem setSram_unack : (s.setSram k v).unack = s.unack := rfl
@[simp] theorem setSram_errnHold : (s.setSram k v).errnHold = s.errnHold := rfl
@[simp] theorem setSram_occs : (s.setSram k v).occs = s.occs := rfl
@[simp] theorem setSram_engs : (s.setSram k v).engs = s.engs := rfl
@[simp] theorem setSram_cache : (s.setSram k v).cache = s.cache := rfl
@[simp] theorem setSram_irq : (s.setSram k v).irq = s.irq := rfl
@[simp] theorem setSram_extLvl : (s.setSram k v).extLvl = s.extLvl := rfl
@[simp] theorem setSram_mea : (s.setSram k v).mea = s.mea := rfl
@[simp] theorem setSram_ring : (s.setSram k v).ring = s.ring := rfl
@[simp] theorem setSram_floor : (s.setSram k v).floor = s.floor := rfl
@[simp] theorem setSram_chg : (s.setSram k v).chg = s.chg := rfl
@[simp] theorem setSram_sphMode : (s.setSram k v).sphMode = s.sphMode := rfl
@[simp] theorem setSram_sphAddr4 : (s.setSram k v).sphAddr4 = s.sphAddr4 := rfl
@[simp] theorem setSram_sphCmd : (s.setSram k v).sphCmd = s.sphCmd := rfl
@[simp] theorem setSram_sphUse : (s.setSram k v).sphUse = s.sphUse := rfl
@[simp] theorem setSram_spt : (s.setSram k v).spt = s.spt := rfl
@[simp] theorem setSram_i2ca : (s.setSram k v).i2ca = s.i2ca := rfl
@[simp] theorem setSram_i2cb : (s.setSram k v).i2cb = s.i2cb := rfl
@[simp] theorem setSram_uart : (s.setSram k v).uart = s.uart := rfl
@[simp] theorem setSram_timers : (s.setSram k v).timers = s.timers := rfl
@[simp] theorem setSram_gpioIn : (s.setSram k v).gpioIn = s.gpioIn := rfl
@[simp] theorem setSram_rtc : (s.setSram k v).rtc = s.rtc := rfl
@[simp] theorem setSram_otp : (s.setSram k v).otp = s.otp := rfl
@[simp] theorem setSram_jtag : (s.setSram k v).jtag = s.jtag := rfl
@[simp] theorem setSram_reg (b : Nat) : (s.setSram k v).reg b = s.reg b := rfl
@[simp] theorem setSram_unit (b : Nat) : (s.setSram k v).unit b = s.unit b := rfl
@[simp] theorem setSram_req (b : Req) : (s.setSram k v).req b = s.req b := rfl
@[simp] theorem setSram_rail (b : Nat) : (s.setSram k v).rail b = s.rail b := rfl
@[simp] theorem setSram_ldo (b : Nat) : (s.setSram k v).ldo b = s.ldo b := rfl
@[simp] theorem setSram_sup (b : Nat) : (s.setSram k v).sup b = s.sup b := rfl
@[simp] theorem setSram_port (b : Nat) : (s.setSram k v).port b = s.port b := rfl
@[simp] theorem setSram_slot (b : Nat) : (s.setSram k v).slot b = s.slot b := rfl
@[simp] theorem setSram_flt (b : Nat) : (s.setSram k v).flt b = s.flt b := rfl
@[simp] theorem setSram_eng (b : Nat) : (s.setSram k v).eng b = s.eng b := rfl
@[simp] theorem setSram_timer (b : Nat) : (s.setSram k v).timer b = s.timer b := rfl
@[simp] theorem setSram_lane (b : Nat) : (s.setSram k v).lane b = s.lane b := rfl
@[simp] theorem setSram_tap (b : Nat) : (s.setSram k v).tap b = s.tap b := rfl
@[simp] theorem setSram_sramAt_self : (s.setSram k v).sramAt k = v := by simp [State.sramAt, State.setSram]
theorem setSram_sramAt (b : Nat) : (s.setSram k v).sramAt b = if b = k then v else s.sramAt b := by
  simp [State.sramAt, State.setSram, mget_mset]
@[simp] theorem setSram_setSram (w : Word) : (s.setSram k v).setSram k w = s.setSram k w := by simp [State.setSram]

end

end Sys2Proof.Machine
end

