-- ==== Sys2Proof/Laws/Settle.lean ====
section
/-! SUPPORT. What follows every command (`settle`): the router and waking engines change, and nothing else. -/

namespace Sys2Proof.Machine

open Sys2Proof Sys2Proof.Safety

/-- Whatever `asserted` is, the fold that collects it holds a source exactly where it is asserted. -/
theorem foldl_srcBit (f : Nat → Bool) (l : List Nat) (v : SrcSet) (n : Nat) (hn : n < 384) (hl : ∀ k ∈ l, k < 384) :
    (l.foldl (fun v k => if f k then v ||| srcBit k else v) v).getLsbD n = (v.getLsbD n || (decide (n ∈ l) && f n)) := by
  induction l generalizing v with
  | nil => simp
  | cons a l ih =>
    have ha : a < 384 := hl a (by simp)
    rw [List.foldl_cons, ih _ (fun k hk => hl k (by simp [hk]))]
    have hb : (srcBit a).getLsbD n = decide (n = a) := by
      have e : (1#384).getLsbD (n - a) = decide (n - a = 0) := by
        by_cases h0 : n - a = 0 <;> simp [h0, BitVec.getLsbD_one]
      simp only [srcBit, ha, if_true, BitVec.getLsbD_shiftLeft, hn, decide_true, Bool.true_and, e]
      by_cases h1 : n = a
      · subst h1; simp
      · by_cases h2 : n < a
        · simp [h2, h1]
        · have : n - a ≠ 0 := by omega
          simp [this, h1]
    by_cases hf : f a
    · simp only [hf, if_true, BitVec.getLsbD_or, hb]
      by_cases h1 : n = a
      · subst h1; simp [hf]
      · simp [h1]
    · simp only [hf, if_false, Bool.false_eq_true]
      by_cases h1 : n = a
      · subst h1; simp [hf]
      · simp [h1]

/-- A source of the block's is in the live assertions exactly where it is asserted. -/
theorem assertVec_getLsbD (s : State) (n : Nat) (hn : n < 384) :
    (assertVec s).getLsbD n = (decide (n < 0xB2) && asserted s n) := by
  rw [assertVec, foldl_srcBit _ _ _ _ hn (by intro k hk; simp at hk; omega)]
  simp

theorem lineSources_getLsbD (n : Nat) (hn : n < 384) : lineSources.getLsbD n = decide (n < 256) := by
  simp only [lineSources, BitVec.getLsbD_ofNat, hn, decide_true, Bool.true_and, Nat.testBit_two_pow_sub_one]

-- the router

theorem present_frame (q : Irq) (t : Nat) :
    (q.present t).en = q.en ∧ (q.present t).clm = q.clm ∧ (q.present t).holds = q.holds ∧
    (q.present t).asleep = q.asleep ∧ (q.present t).saved = q.saved ∧ (q.present t).pend = q.pend ∧
    (q.present t).asrt = q.asrt ∧ (q.present t).late = q.late := by
  unfold Irq.present
  dsimp only
  repeat' split
  all_goals simp

theorem update_frame (q : Irq) (now late : SrcSet) :
    (q.update now late).en = q.en ∧ (q.update now late).clm = q.clm ∧ (q.update now late).holds = q.holds ∧
    (q.update now late).asleep = q.asleep ∧ (q.update now late).saved = q.saved ∧ (q.update now late).asrt = now ∧
    (q.update now late).late = late ∧
    (q.update now late).pend = (q.pend ||| (now &&& (~~~q.claimed &&& lineSources))) &&&
      ~~~(q.asrt &&& ~~~now &&& (~~~q.claimed &&& lineSources)) := by
  simp [Irq.update, present_frame]

/-- The pending bit of a source after the router has taken in the assertions `now` (R351, R352). -/
theorem update_pend (q : Irq) (now late : SrcSet) (n : Nat) (hn : n < 384) :
    (q.update now late).pend.getLsbD n =
      if n < 256 ∧ q.claimed.getLsbD n = false then
        (now.getLsbD n || (q.pend.getLsbD n && !q.asrt.getLsbD n))
      else q.pend.getLsbD n := by
  rw [(update_frame q now late).2.2.2.2.2.2.2]
  simp only [BitVec.getLsbD_and, BitVec.getLsbD_or, BitVec.getLsbD_not, hn, decide_true, Bool.true_and,
    lineSources_getLsbD n hn]
  by_cases h : n < 256 <;> cases q.claimed.getLsbD n <;> cases now.getLsbD n <;> cases q.pend.getLsbD n <;>
    cases q.asrt.getLsbD n <;> simp [h]

-- waking engines

theorem wake_unit_ne (s : State) (n k : Nat) (h : k ≠ uEng n) : (wake s n).unit k = s.unit k := by
  unfold wake
  simp only [State.setCode]
  repeat' split
  all_goals simp [setUnit_unit, h]

theorem wake_eng_ne (s : State) (n k : Nat) (h : k ≠ n) : (wake s n).eng k = s.eng k := by
  unfold wake
  simp only [State.setCode]
  repeat' split
  all_goals simp [setEng_eng, h]

theorem wake_unit (s : State) (n : Nat) :
    (wake s n).unit (uEng n) = s.unit (uEng n) ∨
      (wake s n).unit (uEng n) = { s.unit (uEng n) with code := 1 } := by
  unfold wake
  simp only [State.setCode]
  repeat' split
  all_goals simp

theorem wake_other (s : State) (n : Nat) (h2 : (s.unit (uEng n)).code ≠ 2) (h3 : (s.unit (uEng n)).code ≠ 3) :
    wake s n = s := by
  simp only [wake, h2, h3, if_false, ite_self]

theorem wake_rest (s : State) (n : Nat) :
    wake s n = { s with units := (wake s n).units, engs := (wake s n).engs } := by
  unfold wake
  simp only [State.setCode]
  repeat' split
  all_goals rfl

theorem wake_irq (s : State) (n : Nat) : (wake s n).irq = s.irq := by
  unfold wake
  simp only [State.setCode]
  repeat' split
  all_goals rfl

theorem settle_eq (s : State) :
    settle s = wake (wake (wake (wake { s with irq := settleIrq s } 0) 1) 2) 3 := by
  simp only [settle, List.foldl_cons, List.foldl_nil]

@[simp] theorem settle_irq (s : State) : (settle s).irq = settleIrq s := by
  rw [settle_eq]; simp only [wake_irq]

theorem settleIrq_frame (s : State) :
    (settleIrq s).en = s.irq.en ∧ (settleIrq s).clm = s.irq.clm ∧ (settleIrq s).holds = s.irq.holds ∧
    (settleIrq s).asleep = s.irq.asleep ∧ (settleIrq s).saved = s.irq.saved := by
  unfold settleIrq
  split
  · simp
  · have h := update_frame s.irq (assertVec s) (lateHeld s); simp [h]

/-- What the router sees held for waiting occurrences is what they hold (R286). -/
theorem settleIrq_late (s : State) (ha : s.irq.asleep = false) : (settleIrq s).late = lateHeld s := by
  simp [settleIrq, ha, update_frame]

theorem settleIrq_pend (s : State) (n : Nat) (hn : n < 384) (ha : s.irq.asleep = false) :
    (settleIrq s).pend.getLsbD n =
      if n < 256 ∧ s.irq.claimed.getLsbD n = false then
        ((decide (n < 0xB2) && asserted s n) || (s.irq.pend.getLsbD n && !s.irq.asrt.getLsbD n))
      else s.irq.pend.getLsbD n := by
  simp [settleIrq, ha, update_pend _ _ _ n hn, assertVec_getLsbD s n hn]

theorem settle_unit_ne (s : State) (n : Nat) (h : ¬(0x38 ≤ n ∧ n ≤ 0x3B)) : (settle s).unit n = s.unit n := by
  rw [settle_eq, wake_unit_ne _ _ _ (by simp [uEng]; omega), wake_unit_ne _ _ _ (by simp [uEng]; omega),
    wake_unit_ne _ _ _ (by simp [uEng]; omega), wake_unit_ne _ _ _ (by simp [uEng]; omega)]
  rfl

/-- What `settle` leaves is what follows every command. -/
theorem follows_settle (m : State) : Follows m (settle m) where
  rest := by
    rw [settle_eq, wake_rest _ 3, wake_rest _ 2, wake_rest _ 1, wake_rest _ 0]
  enables := by simp [settleIrq_frame]
  claims := by simp [settleIrq_frame]
  holds := by simp [settleIrq_frame]
  asleep := by simp [settleIrq_frame]
  saved := by simp [settleIrq_frame]
  waiting := by
    rw [settle_irq]
    intro h
    exact settleIrq_late m ((settleIrq_frame m).2.2.2.1 ▸ h)
  doorbells := by
    intro n hn
    by_cases h : n < 384
    · rw [settle_irq]
      by_cases ha : m.irq.asleep = false
      · rw [settleIrq_pend m n h ha]; simp; omega
      · simp [settleIrq, ha]
    · rw [BitVec.getLsbD_of_ge _ _ (by omega), BitVec.getLsbD_of_ge _ _ (by omega)]
  units := fun n h => settle_unit_ne m n h
  engine := by
    intro n hn h2 h3
    rw [settle_eq]
    have e : ∀ k, ({ m with irq := settleIrq m } : State).unit k = m.unit k := fun _ => rfl
    have g : ∀ k, ({ m with irq := settleIrq m } : State).eng k = m.eng k := fun _ => rfl
    revert e g
    generalize ({ m with irq := settleIrq m } : State) = m'
    intro e g
    have : n = 0 ∨ n = 1 ∨ n = 2 ∨ n = 3 := by omega
    rw [← e] at h2 h3
    rw [← e, ← g]
    rcases this with rfl | rfl | rfl | rfl
    · simp (disch := decide) only [wake_unit_ne, wake_eng_ne, wake_other m' 0 h2 h3, and_self]
    · have o := wake_other (wake m' 0) 1
      simp (disch := decide) only [wake_unit_ne] at o
      simp (disch := decide) only [wake_unit_ne, wake_eng_ne, o h2 h3, and_self]
    · have o := wake_other (wake (wake m' 0) 1) 2
      simp (disch := decide) only [wake_unit_ne] at o
      simp (disch := decide) only [wake_unit_ne, wake_eng_ne, o h2 h3, and_self]
    · have o := wake_other (wake (wake (wake m' 0) 1) 2) 3
      simp (disch := decide) only [wake_unit_ne] at o
      simp (disch := decide) only [wake_unit_ne, wake_eng_ne, o h2 h3, and_self]
  sleeper := by
    intro n hn
    rw [settle_eq]
    have e : ∀ k, ({ m with irq := settleIrq m } : State).unit k = m.unit k := fun _ => rfl
    revert e
    generalize ({ m with irq := settleIrq m } : State) = m'
    intro e
    have : n = 0 ∨ n = 1 ∨ n = 2 ∨ n = 3 := by omega
    rw [← e]
    rcases this with rfl | rfl | rfl | rfl
    · have o := wake_unit m' 0
      simpa (disch := decide) only [wake_unit_ne] using o
    · have o := wake_unit (wake m' 0) 1
      simpa (disch := decide) only [wake_unit_ne] using o
    · have o := wake_unit (wake (wake m' 0) 1) 2
      simpa (disch := decide) only [wake_unit_ne] using o
    · have o := wake_unit (wake (wake (wake m' 0) 1) 2) 3
      simpa (disch := decide) only [wake_unit_ne] using o
  others := by
    intro n hn
    rw [settle_eq, wake_eng_ne _ _ _ (by omega), wake_eng_ne _ _ _ (by omega), wake_eng_ne _ _ _ (by omega),
      wake_eng_ne _ _ _ (by omega)]
    rfl

/-- A command whose meaning is done with `m` leaves `m`. -/
theorem leaves_of_done (c : Instr) (s m : State) (h : exec c s = done m) : Leaves c s m :=
  ⟨settle m, h, follows_settle m⟩

end Sys2Proof.Machine
end

