-- ==== Sys2Proof/Laws/Engine.lean ====
section
/-! SUPPORT. What an engine's instruction does around its own effect. -/

namespace Sys2Proof.Machine

open Sys2Proof Sys2Proof.Safety

theorem cacheTouch_rest (s : State) (a : Word) : cacheTouch s a = { s with cache := (cacheTouch s a).cache } := by
  unfold cacheTouch
  dsimp only
  split
  · rfl
  · split <;> rfl

@[simp] theorem cacheTouch_eng (s : State) (a : Word) (n : Nat) : (cacheTouch s a).eng n = s.eng n := by
  rw [cacheTouch_rest]; rfl
@[simp] theorem cacheTouch_unit (s : State) (a : Word) (n : Nat) : (cacheTouch s a).unit n = s.unit n := by
  rw [cacheTouch_rest]; rfl
@[simp] theorem cacheTouch_reg (s : State) (a : Word) (n : Nat) : (cacheTouch s a).reg n = s.reg n := by
  rw [cacheTouch_rest]; rfl
@[simp] theorem cacheTouch_req (s : State) (a : Word) (n : Req) : (cacheTouch s a).req n = s.req n := by
  rw [cacheTouch_rest]; rfl
@[simp] theorem cacheTouch_irq (s : State) (a : Word) : (cacheTouch s a).irq = s.irq := by
  rw [cacheTouch_rest]
@[simp] theorem cacheTouch_occs (s : State) (a : Word) : (cacheTouch s a).occs = s.occs := by
  rw [cacheTouch_rest]

theorem engineRuns_iff (s : State) (n : Nat) :
    engineRuns s n = true ↔ engReady s n = true ∧ atBreakpoint s n = false := by
  simp [engineRuns, engineGoes, entryDue, engReady, engRuns, nmiDue, intDue, uEng, and_assoc]

/-- An engine that executes its next instruction is RUNNING. -/
theorem engineRuns_code (s : State) (n : Nat) (h : engineRuns s n = true) : (s.unit (uEng n)).code = 1 := by
  have h := ((engineRuns_iff s n).1 h).1
  simp only [engReady, engRuns, Bool.and_eq_true, beq_iff_eq] at h
  exact h.1.1.1.1.1.1.1

theorem bpHits_of (s : State) (n : Nat) (h : atBreakpoint s n = false) : bpHits s n = 0 := by
  unfold atBreakpoint at h
  unfold bpHits
  dsimp only at h ⊢
  split
  · rfl
  · next hs =>
    simp only [hs, Bool.not_false, Bool.true_and, Bool.or_eq_false_iff] at h
    simp [h.1, h.2, flag]

/-- The lines that the fetch of an instruction of `len` words uses. -/
abbrev fetched (s : State) (n : Nat) (len : Word) : State :=
  if len = 2 then cacheTouch (cacheTouch s (s.eng n).pc) ((s.eng n).pc + 1) else cacheTouch s (s.eng n).pc

/-- The instruction's effect, and then its end. -/
theorem engRunLen_runs (s : State) (n : Nat) (len : Word) (f : State → State) (h : engineRuns s n = true) :
    engRunLen n len f s = engEnd (f (fetched s n len)) n := by
  obtain ⟨h1, h2⟩ := (engineRuns_iff s n).1 h
  simp [engRunLen, h1, bpHits_of s n h2, fetched]

theorem engRun_runs (s : State) (n : Nat) (f : State → State) (h : engineRuns s n = true) :
    engRun n f s = engEnd (f (cacheTouch s (s.eng n).pc)) n := by
  rw [engRun, engRunLen_runs s n 1 f h]; simp [fetched]

/-- An instruction that changes the engine alone. -/
theorem engPure_runs (s : State) (n : Nat) (len : Word) (f : Eng → Eng) (h : engineRuns s n = true) :
    engPure n len f s = executed s n { f (s.eng n) with pc := (s.eng n).pc + len } len := by
  have hc := engineRuns_code s n h
  unfold engPure
  rw [engRunLen_runs s n len _ h]
  have he : (fetched s n len).eng n = s.eng n := by simp only [fetched]; split <;> simp
  have hu : (fetched s n len).unit (uEng n) = s.unit (uEng n) := by simp only [fetched]; split <;> simp
  simp only [he, engEnd, setEng_unit, hu, hc]
  simp [executed, fetched]

/-- The end of an instruction of a RUNNING engine. -/
theorem engEnd_running (s : State) (n : Nat) (hc : (s.unit (uEng n)).code = 1) :
    engEnd s n = s.setEng n (engFinish (s.eng n)) := by
  simp [engEnd, hc]

end Sys2Proof.Machine
end

