-- ==== Sys2Proof/Laws/Access.lean ====
section
/-! SUPPORT. Accesses: the order of checks, and what an access that is rejected or accepted does as a whole. -/

namespace Sys2Proof.Machine

open Sys2Proof

-- the order of checks (R38)

@[simp] theorem firstFail_nil : firstFail [] = eOk := rfl

theorem firstFail_cons (b : Bool) (c : Word) (l : List (Bool × Word)) :
    firstFail ((b, c) :: l) = if b then c else firstFail l := rfl

/-- A list of checks passes exactly where none fails. -/
theorem firstFail_ok_iff (l : List (Bool × Word)) (h : ∀ p ∈ l, p.2 ≠ eOk) :
    firstFail l = eOk ↔ ∀ p ∈ l, p.1 = false := by
  induction l with
  | nil => simp
  | cons p l ih =>
    obtain ⟨b, c⟩ := p
    rw [firstFail_cons, List.forall_mem_cons, ← ih fun q hq => h q (List.mem_cons_of_mem _ hq)]
    cases b
    · exact ⟨fun x => ⟨rfl, x⟩, fun x => x.2⟩
    · exact ⟨fun x => absurd x (h _ (List.mem_cons_self ..)), fun x => nomatch x.1⟩

-- accesses (R48, R49)

/-- A rejected access changes the requester's last-error register alone. -/
theorem recordErr_rest (s : State) (r : Req) (c : Word) : recordErr s r c = { s with reqs := (recordErr s r c).reqs } := by
  unfold recordErr noteCode
  split <;> rfl

theorem recordErr_lasterr (s : State) (r : Req) (c : Word) (h : c ≠ eOk) :
    recordErr s r c = s.setReq r { s.req r with lasterr := c } := if_neg h

theorem busWrite_rejected (s : State) (r : Req) (a : Nat) (v : Word) (h : writeCode s r a v ≠ eOk) :
    busWrite s r a v = (recordErr s r (writeCode s r a v), writeCode s r a v) := if_pos h

theorem busWrite_accepted (s : State) (r : Req) (a : Nat) (v : Word) (h : writeCode s r a v = eOk) :
    busWrite s r a v = (applyWrite s r a v, eOk) := if_neg (not_not.2 h)

theorem busRead_rejected (s : State) (r : Req) (a : Nat) (h : readCode s r a ≠ eOk) :
    busRead s r a = (recordErr s r (readCode s r a), readCode s r a, 0) := if_pos h

theorem busRead_accepted (s : State) (r : Req) (a : Nat) (h : readCode s r a = eOk) :
    busRead s r a = ((readValue s r a).2, eOk, (readValue s r a).1) := if_neg (not_not.2 h)

-- a word read from a memory (R232)

/-- The word is the memory's unless the read meets an uncorrectable error. -/
theorem memoryRead_word (s : State) (a : Nat) (v : Word) :
    (memoryRead s a v).1 = if Config.freeEcc s.fresh = 2 then Config.freeEccWord s.fresh else v := by
  unfold memoryRead
  exact apply_ite Prod.fst ..

/-- A memory read takes a free value, and an error that it meets is an occurrence; nothing else changes. -/
theorem memoryRead_rest (s : State) (a : Nat) (v : Word) :
    (memoryRead s a v).2 = { s with fresh := s.fresh + 1, occs := (memoryRead s a v).2.occs } := by
  unfold memoryRead
  dsimp only
  by_cases h : Config.freeEcc s.fresh = 2
  · simp only [if_pos h]; rfl
  · simp only [if_neg h]; by_cases g : Config.freeEcc s.fresh = 1 ∧ 0x8000 ≤ a
    · simp only [if_pos g]; rfl
    · simp only [if_neg g]; rfl

end Sys2Proof.Machine
end

