-- ==== Sys2Proof/WellFormed.lean ====
section
/-! DEFINITION. Which command terms stand for a command the manual describes: the sizes and addresses that an operand
type alone does not fix. `exec` is total; a term outside this set stands for no command. -/

namespace Sys2Proof

open Sys2Proof.Machine

/-- The detectors of R153 keep sixteen pairs. -/
def Meas.wf (m : Meas) : Bool := m.hist.length == 16

/-- A ring cycle has 20 codewords of 544 symbols (R423, R425). -/
def RingRx.wf (x : RingRx) : Bool :=
  x.codewords.length == 20 && (x.codewords.all fun c => c.length == 544)

/-- The well-formed commands: the address of a _HI or _LO access names such a word, an incomplete or skipped grist
record has the shape its name says, and byte, word and bit lists have the sizes of what they stand for (a UART character: its
bits after the start bit, R577). -/
def Instr.wf : Instr → Bool
  | .write p => 2 ≤ p.length && p.length ≤ 4095
  | .tag ws => 1 ≤ ws.length && ws.length ≤ 8
  | .skippedRecord h p => field h 11 0 == p.length && h != 0xFFFF && field h 15 12 != 0
  | .window p => p.length ≤ 4096
  | .startCheckEnd _ _ m | .ov _ m | .uv _ m | .oc _ m | .short _ m | .openSense _ m | .stageFlt _ m
  | .stageOt _ m | .ssto _ m | .trackErr _ m => m.wf
  | .stagedWrite _ a _ => (regInfo a.toNat).acc == .rws
  | .hiWrite _ a _ => pairHi a.toNat
  | .loWrite _ a _ | .loRead _ a => pairLo a.toNat
  | .uartCharRx xs => 9 ≤ xs.length && xs.length ≤ 11
  | .sptReadCmd sdi | .sptWriteCmd sdi | .sptWriteFrame sdi => sdi.length == 32
  | .statusPollDone d | .sphNoresp d => d.header.length == 16
  | .lineFill _ (.line bs) => bs.length == 32
  | .ringCycleRx x => x.wf
  | .pathFlt d => d == 1 || d == 2
  | .extest cells | .samplePreload cells => scanFits cells
  | .bypass code => irSelect (code.getD 0xF) == 0xF
  | .xdone rx => rx.length ≤ 64
  | .mdone _ _ n rx => rx.length ≤ n.val
  | _ => true

end Sys2Proof
end

