-- ==== Sys2Proof/Tests/Slice0.lean ====
section
/-! SUPPORT. Tests: the well-formedness checks, some steps whose results the manual gives, and for every statement of
Certificates/Slice0/Obligations.lean that has hypotheses states and operands that meet them, clause by clause. -/

open Sys2Proof Sys2Proof.Machine Sys2Proof.Safety

set_option maxRecDepth 4000

-- small states

/-- The block in RUNNING, all else as at reset. -/
def tRun : State := { State.reset with boot := { phase := .running } }

/-- The block in the load phase, the status poll over. -/
def tLoad : State := { State.reset with boot := { phase := .load, polled := true, bytes := 0 } }

/-- `s` with these words in registers. -/
def tRegs (l : List (Nat × Word)) (s : State) : State := l.foldl (fun s p => s.setReg p.1 p.2) s

/-- RUNNING with these words as the SPI target's ARG0 onwards. -/
def tArgs (l : List Word) (s : State := tRun) : State := l.zipIdx.foldl (fun s p => setBank s .spt (2 + p.2) p.1) s

/-- What a command leaves of `s`. -/
def tNext (c : Instr) (s : State) : State := match exec c s with
  | .next t => t
  | _ => State.reset

/-- RUNNING with unit n as given. -/
def tUnit (n : Nat) (u : UnitSt) (s : State := tRun) : State := s.setUnit n u

/-- RUNNING with engine 0 RUNNING at `x`. -/
def tEng (x : Eng) : State := (tUnit 0x38 { code := 1 }).setEng 0 x

/-- A ring that is UP with device 1 as its master and devices 0 and 1 present. -/
def tRing : State :=
  tUnit 0x48 { code := 2 } (tUnit 0x49 { code := 2 }
    { tRegs [(0x4000, 0x0001)] tRun with ring := { live := true, master := some 1, age := [(0, 0), (1, 0)] } })

/-- A floor port LISTENING with slot timing, and device 1 present. -/
def tFloor : State := tUnit 0x4C { code := 2 } { tRun with floor := { timed := true, age := [(1, 0)] } }

/-- The charger in the state with this code, at 25 °C. -/
def tChg (c : BitVec 4) (g : Chg := {}) : State := tUnit 0x4D { code := c } { tRegs [(0x1A1A, 400)] tRun with chg := g }

def tMeas : Meas :=
  { phase := 0, ramp := 0, srcRamp := 0, srcSense := 0, sense := 0, imon := [], peak := 0, tmon := 0, vsys := 0
    hist := List.replicate 16 (0, []) }
def tMsg : Msg := { kind := 1, dst := 0, src := 1, tag := 0, count := 1, code := 0, data := [] }
def tCycle : RingRx := { ring1 := false, inst := 0, fineTx := 0, fineRx := 0, codewords := [] }
def tTap : Tap :=
  { conv := 0, src := 0, every := 1, form := false, hush := false, dest := 0, rdyirq := false, arg4 := 1, arg5 := 0,
    acct := 0, skip := 1, cur := none, queue := [], seq := 0, lost := 0, lostAll := 0, gapNext := false,
    firstNext := false, count := 0 }
def tBlock : Block :=
  { handle := 0, form := false, gap := false, nh := false, first := false, refInt := true, seq := 0, lost := 0, stamp := 0,
    spacing := 0, data := [0], resv := false }
def tPend : PendReq := { r := .spt, kind := 1, dst := 1, tag := 0, no := 0, sent := true }

-- the well-formedness checks, each with a term it refuses

theorem test_wf_load_records :
    Instr.wf (.write [0]) = false ∧ Instr.wf (.write [0, 0]) = true ∧ Instr.wf (.tag []) = false ∧
    Instr.wf (.tag [1, 2, 3, 4, 5, 6, 7, 8]) = true ∧ Instr.wf (.tag [1, 2, 3, 4, 5, 6, 7, 8, 9]) = false ∧
    Instr.wf (.skippedRecord 0x6001 []) = false ∧ Instr.wf (.skippedRecord 0x6001 [0]) = true ∧
    Instr.wf (.skippedRecord 0xFFFF []) = false ∧ Instr.wf (.skippedRecord 0x0000 []) = false := by decide

theorem test_wf_window : Instr.wf (.window (List.replicate 4097 0)) = false ∧ Instr.wf (.window []) = true := by
  decide +kernel

theorem test_wf_detections :
    ∀ i ∈ [Instr.ov 0 { tMeas with hist := [] }, .uv 0 { tMeas with hist := [] }, .oc 0 { tMeas with hist := [] },
      .short 0 { tMeas with hist := [] }, .openSense 0 { tMeas with hist := [] }, .stageFlt 0 { tMeas with hist := [] },
      .stageOt 0 { tMeas with hist := [] }, .ssto 0 { tMeas with hist := [] }, .trackErr 0 { tMeas with hist := [] },
      .startCheckEnd 0 0 { tMeas with hist := [] }], Instr.wf i = false := by decide

theorem test_wf_addresses :
    Instr.wf (.stagedWrite .spt 0x1002 0) = true ∧ Instr.wf (.stagedWrite .spt 0x0000 0) = false ∧
    Instr.wf (.hiWrite .spt 0x5012 0) = true ∧ Instr.wf (.hiWrite .spt 0x5011 0) = false ∧
    Instr.wf (.loWrite .spt 0x5011 0) = true ∧ Instr.wf (.loWrite .spt 0x5012 0) = false ∧
    Instr.wf (.loRead .spt 0x0027) = true ∧ Instr.wf (.loRead .spt 0x0028) = false := by decide

theorem test_wf_sizes :
    Instr.wf (.lineFill 0 (.line [])) = false ∧ Instr.wf (.lineFill 0 (.line (List.replicate 32 0))) = true ∧
    Instr.wf (.uartCharRx (List.replicate 8 (true, true, true))) = false ∧
    Instr.wf (.uartCharRx (List.replicate 9 (true, true, true))) = true ∧
    Instr.wf (.ringCycleRx tCycle) = false ∧ Instr.wf (.ringCycleRx { tCycle with codewords := List.replicate 20 [] }) = false ∧
    Instr.wf (.xdone (List.replicate 65 0)) = false ∧ Instr.wf (.mdone .a .done 0 [0]) = false := by decide

-- an engine's words, written out bit by bit from R308 and from the example of 09_recipe_engines.md

theorem test_words_alu :
    decodeWords 0 0b0000_0101_1000_1010 0 = some (.lsr 0 5 8) ∧ decodeWords 0 0b0000_0010_0011_1101 0 = some (.mul 0 2 3) ∧
    decodeWords 0 0b0000_0011_0011_1101 0 = none ∧ decodeWords 0 0b0001_0010_0011_0001 0 = some (.negs 0 2 3) ∧
    decodeWords 0 0b0001_0000_0000_1010 0 = some (.reti 0) ∧ decodeWords 0 0b0001_0000_0000_1101 0 = none ∧
    decodeWords 0 0b0001_0001_0000_1000 0 = none := by decide

theorem test_words_immediate :
    decodeWords 1 0b0011_1001_0000_0000 0 = some (.cmpi 1 9 0) ∧ decodeWords 1 0b0010_0001_1111_1111 0 = some (.addi 1 1 0xFF) ∧
    decodeWords 1 0b0101_0111_0000_0000 0x2A01 = some (.ldl 1 7 0x2A01) ∧ decodeWords 1 0b0101_0111_0000_0001 0 = none ∧
    twoWords 0x5700 = true ∧ twoWords 0x9100 = true ∧ twoWords 0x9200 = false := by decide

theorem test_words_memory_and_jumps :
    decodeWords 2 0b0110_0101_0111_0000 0 = some (.ld 2 5 7 0) ∧ decodeWords 2 0b0111_1101_1110_0000 0 = some (.st 2 13 14 0) ∧
    decodeWords 2 0b1000_0001_1111_1110 0 = some (.bcc 2 1 0xFE) ∧ decodeWords 2 0b1000_1111_0000_0000 0 = none ∧
    decodeWords 2 0b1001_0001_0000_0000 0x1234 = some (.call 2 0x1234) ∧ decodeWords 2 0b1001_0011_0101_0000 0 =
      some (.callr 2 5) := by decide

theorem test_words_system :
    decodeWords 3 0b1100_1001_0100_0000 0 = some (.ureqSetv 3 9 4) ∧ decodeWords 3 0b1100_1001_1110_0000 0 = none ∧
    decodeWords 3 0b1010_1010_1011_1100 0 = some (.wait 3 10 11 12) ∧ decodeWords 3 0b1011_0001_0010_0001 0 =
      some (.abortInstr 3 1 2) ∧ decodeWords 3 0b1101_0000_0001_0010 0 = some (.trap 3 0x12) ∧
    decodeEng 3 0b1110_0000_0000_0000 0 = .illegal 3 := by decide

-- steps whose results the manual gives

/-- NEG of 0x8000 gives 0x8000 with V set (R313). -/
theorem test_neg_edge : (aluSub 0 0x8000 0).1 = 0x8000 ∧ fV (aluSub 0 0x8000 0).2 = true := by decide

/-- Power-on reset leaves GLB_ID at 0x9128 and PHASE at 0 (R25). -/
theorem test_reset_id : State.reset.reg 0x0000 = 0x9128 ∧ State.reset.reg 0x0020 = 0 := by decide

/-- No word of the table spells a command. -/
theorem test_no_words : decodeTableWord 16 0 = none ∧ (tRun.withFetchWord 16 0) = tRun := ⟨rfl, rfl⟩


-- witnesses: engines

theorem test_witness_arithmetic :
    engineRuns (tEng { g := [(1, 5)] }) 0 = true ∧ (0 : BitVec 4).toNat % 2 = 0 ∧ (14 : BitVec 4).toNat % 2 = 0 ∧
    ((tEng { g := [(1, 5)] }).eng 0).greg 1 ≠ 0 ∧ ((tEng {}).eng 0).greg 1 = 0 ∧ bit ((tEng {}).reg 0x2001) 1 = false ∧
    engineRuns (tRegs [(0x2001, 2)] (tEng {})) 0 = true ∧ bit ((tRegs [(0x2001, 2)] (tEng {})).reg 0x2001) 1 = true ∧
    ((tEng {}).eng 0).exc = false ∧ ((tEng {}).eng 0).nmiact = false := by decide

theorem test_witness_loads :
    let s (a : Word) : State := tEng { g := [(1, a)] }
    let found (a : Word) : State := (cacheTouch (s a) 0).setEng 0 { (s a).eng 0 with pc := 1 }
    engineRuns (s 0x8000) 0 = true ∧ proofRun (s 0x8000) = 0 ∧ ((s 0x8000).eng 0).greg 1 = 0x8000 ∧
    ((s 0x9FFF).eng 0).greg 1 = 0x9FFF ∧ readCode (found 0x2800) (.engine 0) 0x2800 ≠ 0 ∧
    writeCode (found 0) (.engine 0) 0 1 ≠ 0 ∧ readCode (found 0) (.engine 0) 0 = 0 ∧
    writeCode (found 0x8000) (.engine 0) 0x8000 1 = 0 := by decide

theorem test_witness_waits :
    let s (v : Word) : State := tEng { g := [(1, v)] }
    let w : State := (tUnit 0x38 { code := 3 }).setEng 0 { waiting := some (0, 0xFFFF, 1) }
    let c : State := { tEng {} with irq := { pend := srcBit 0x100, en := [(0, srcBit 0x100)] } }
    engineRuns (s 0x180) 0 = true ∧ engineRuns (s 0xFFFF) 0 = true ∧ engineRuns (s 0x17F) 0 = true ∧
    ((s 0x180).eng 0).greg 1 = 0x180 ∧ ((s 0xFFFF).eng 0).greg 1 = 0xFFFF ∧ ((s 0x100).eng 0).greg 1 = 0x100 ∧
    ((s 0x17F).eng 0).greg 1 = 0x17F ∧ ((s 0xFF).eng 0).greg 1 = 0xFF ∧
    (w.unit 0x38).code = 3 ∧ (w.unit 0x38).fenced = false ∧ (w.eng 0).halted = false ∧ (w.eng 0).stopReq = false ∧
    (w.eng 0).haltReq = false ∧ (1 : Word) ≠ 0 ∧
    (w.eng 0).waiting = some (0, 0xFFFF, 1) ∧
    engineRuns c 0 = true ∧ (irqSeen c).eligible 0 = srcBit 0x100 ∧ (irqSeen (tEng {})).eligible 0 = 0 := by
  decide +kernel

theorem test_witness_traps :
    engineRuns (tEng { iact := true, exc := true, nmiact := true }) 0 = true ∧ engineRuns (tEng {}) 0 = true ∧
    ((tEng {}).eng 0).exc = false ∧ ((tEng {}).eng 0).nmiact = false ∧ ((tEng {}).eng 0).iact = false ∧
    (1 : BitVec 4).toNat % 2 = 1 ∧ 13 < (14 : BitVec 4).toNat := by decide

theorem test_witness_entries :
    let a : State := { tEng { flags := 0x40 } with irq := { pend := srcBit 0x100, en := [(0, srcBit 0x100)] } }
    let n : State := tEng { nmipend := true }
    let x : State := tEng { xcpt := some (.fetch, true) }
    (a.unit 0x38).code = 1 ∧ (a.unit 0x38).fenced = false ∧ (a.eng 0).halted = false ∧ a.irq.asleep = false ∧
    a.irq.eligible 0 ≠ 0 ∧ fI (a.eng 0).flags = true ∧ (a.eng 0).iact = false ∧ (a.eng 0).stepArm = false ∧
    (a.eng 0).exc = false ∧ (a.eng 0).nmipend = false ∧ (a.eng 0).xcpt = none ∧ (a.eng 0).stopReq = false ∧
    (n.eng 0).xcpt = none ∧ (n.eng 0).nmipend = true ∧ (n.eng 0).nmiact = false ∧ (n.unit 0x38).code = 1 ∧
    (x.eng 0).xcpt = some (.fetch, true) ∧ (x.unit 0x38).code = 1 := by
  decide +kernel

theorem test_witness_requests :
    let s : State := tUnit 0 { owner := .engine } (tEng { g := [(4, 24), (5, 7), (6, 8)] })
    let p : State := setBank s (.engine 0) 0xA 1
    engineRuns s 0 = true ∧ (s.eng 0).greg 1 = 0 ∧ ownerIs (s.unit 0) .engine 0 = true ∧
    railCode s 0 true (some 0) .on = 0 ∧ railCode s 0 true (some 0) .off ≠ 0 ∧ railCode s 0 true (some 0) (.setv 3000) = 0 ∧
    railCode s 0 true (some 0) (.setv 55000) = 0 ∧ railCode s 0 true (some 0) (.setv 2999) ≠ 0 ∧
    railCode (tUnit 0 { code := 4, owner := .engine }) 0 true (some 0) .off = 0 ∧
    ((s.eng 0).greg 4).toNat = 24 ∧ ((s.eng 0).greg 5).toNat = 7 ∧ ((s.eng 0).greg 6).toNat = 8 ∧
    bankPending s (.engine 0) = false ∧ engineRuns p 0 = true ∧ bankPending p (.engine 0) = true := by decide

theorem test_witness_debug :
    let h : State := tRegs [(0x2400, 1)] (tEng { halted := true })
    let fl : State := tEng { pc := 0x2000 }
    let fh : State := { tEng { pc := 0x200F } with cache := [{ base := 0x2000, words := [] }] }
    admitted tRun .spt = true ∧ otpLock tRun 4 = false ∧ ((tEng {}).eng 0).halted = false ∧ (h.eng 0).halted = true ∧
    bit (h.reg 0x2400) 0 = true ∧ admitted h .spt = true ∧ otpLock h 4 = false ∧
    ((tEng { haltReq := true }).eng 0).haltReq = true ∧ bit ((tRegs [(0x2001, 4)] (tEng {})).reg 0x2001) 2 = true ∧
    ((tEng { stopReq := true }).eng 0).stopReq = true ∧
    engineGoes fl 0 = true ∧ entryDue fl 0 = false ∧ (List.replicate 32 (0 : Byte)).length = 32 ∧ (fl.unit 0x56).fenced = false ∧ bit (fl.reg 0x5000) 0 = false ∧
    (∀ l ∈ fl.cache, l.base ≠ 0x2000) ∧ ¬((fl.eng 0).pc.toNat < 0x2000 ∨ ∃ l ∈ fl.cache, l.base = (fl.eng 0).pc &&& 0xFFF0) ∧
    engineGoes fh 0 = true ∧ entryDue fh 0 = false ∧ (∃ l ∈ fh.cache, l.base = (fh.eng 0).pc &&& 0xFFF0) ∧ (∀ l ∈ fh.cache, l.base ≠ 0x2010) := by
  decide

-- witnesses: accesses, units, commits and the log

theorem test_witness_rejected :
    let proof : State := tRegs [(0x6800, 1)] tRun
    let fenced : State := tUnit 0x3C { fenced := true }
    let owned : State := tUnit 0x3C { owner := .engine }
    writes tRun (.registerWrite .spt 0x0000 1) = some (.spt, 0, 1) ∧ mayAccess tRun .spt = true ∧
    writeCode tRun .spt 0 1 ≠ 0 ∧
    ((regInfo 0x0003).acc = .reserved ∧ (1 : Word) ≠ 0) ∧ (regInfo 0xFFFF).acc = .unmapped ∧
    ((regInfo 0).acc = .ro ∧ rangeOk 0 0 = true ∧ (0 : Word) &&& ~~~(regInfo 0).mask = 0) ∧
    ((regInfo 0x1002).acc = .rws ∧ (2999 : Word) &&& ~~~(regInfo 0x1002).mask = 0 ∧ rangeOk 0x1002 2999 = false ∧
      rangeOk 0x1002 3000 = true ∧ tRun.rtc.lock = false ∧ heldAddr proof 0x2001 = true ∧ (regInfo 0x2001).acc = .rws ∧ rangeOk 0x2001 0 = true) ∧
    ((regInfo 0x1802).acc = .rws ∧ rangeOk 0x1802 0 = true ∧ heldAddr tRun 0x1802 = false ∧
      holderOf 0x1802 = some (.unit 0x3C) ∧ (fenced.unit 0x3C).fenced = true ∧ (owned.unit 0x3C).fenced = false ∧
      (∀ u, Req.spt.unit = some u → (owned.unit u).fenced = false) ∧ reqOwns .spt (owned.unit 0x3C) = false) ∧
    admitted (setBank tRun .spt 0xA 1) .spt = true ∧ bankPending (setBank tRun .spt 0xA 1) .spt = true := by
  simp only [Req.unit, Option.some.injEq, forall_eq']
  decide

theorem test_witness_rejected_first :
    let locked : State := tRegs [(0x6001, 0x10)] tRun
    mayAccess tLoad .spt = true ∧ (Req.isHost .spt = true ∧ tLoad.boot.phase = .load ∧ 0x1002 ≠ 0x0002) ∧
    (bankPending (setBank tRun .spt 0xA 1) .spt = true ∧ 0x7000 ≤ 0x700E) ∧
    (otpLock locked 4 = true ∧ ¬(Req.isHost .spt = true ∧ locked.boot.phase = .load) ∧ bankPending locked .spt = false ∧
      (0x2400 ≤ 0x2400 ∧ 0x2400 < 0x2800) ∧ (0x2400 ≤ 0x27FF ∧ 0x27FF < 0x2800)) := by decide

theorem test_witness_accepted :
    admitted tRun .spt = true ∧ mayAccess tRun .spt = true ∧ writeCode tRun .spt 0x8000 1 = 0 ∧
    (regInfo 0x0003).acc = .reserved ∧ (regInfo 0x1011).acc = .w1c ∧ (1 : Word) &&& ~~~(regInfo 0x1011).mask = 0 ∧
    writeCode tRun .spt 0x9FFF 1 = 0 ∧ bankPending tRun .spt = false := by decide

theorem test_witness_staged :
    let other : State := { tRun with holders := [{ holder := .unit 0, group := 1, gen := 0 }] }
    let full : State := { tRun with draught := List.replicate 512 { addr := 0x1003, word := 0, group := 0 } }
    holderOf 0x1002 = some (.unit 0) ∧ pairLo 0x1002 = false ∧ pairHi 0x1002 = false ∧ (tRun.unit 0).fenced = false ∧
    reqOwns .spt (tRun.unit 0) = true ∧ rangeOk 0x1002 3000 = true ∧ rangeOk 0x1002 55000 = true ∧
    (3000 : Word) &&& ~~~(regInfo 0x1002).mask = 0 ∧ admitted tRun .spt = true ∧ seqRunning tRun = false ∧
    tRun.holding (.unit 0) = none ∧ tRun.draught.length < 512 ∧
    other.holding (.unit 0) = some { holder := .unit 0, group := 1, gen := 0 } ∧ (other.req .spt).cgrp = 0 ∧
    full.staged 0x1002 = none ∧ 512 ≤ full.draught.length ∧ full.holding (.unit 0) = none := by
  decide +kernel

theorem test_witness_pairs :
    let st : State := tRun.setReq .spt { stage := [(0x5011, some 1)] }
    mayAccess tRun .spt = true ∧ pairLo 0x0027 = true ∧ readCode tRun .spt 0x0027 = 0 ∧ pairHi 0x5012 = true ∧
    writeCode tRun .spt 0x5012 0 = 0 ∧ pairLo 0x5011 = true ∧ writeCode tRun .spt 0x5011 0 = 0 ∧
    mget dLatch (tRun.req .spt).stage 0x5011 = none ∧ mget dLatch (st.req .spt).stage 0x5011 = some 1 ∧
    mayAccess st .spt = true ∧ writeCode st .spt 0x5011 0 = 0 ∧ readCode tRun .spt 0x001A = 0 := by decide

theorem test_witness_mailbox :
    let f : State := tUnit 0x57 { fenced := true }
    let p : State := setBank tRun .spt 0xA 1
    let l : State := tRun.setReq .spt { last := some 0 }
    mailbox (.commit .spt) = some (.spt, 0x0201) ∧ mailbox (.unitRelease .spt) = some (.spt, 0x0104) ∧
    served tRun .spt = true ∧ served f .spt = true ∧ reqFenced f .spt = true ∧ reqFenced tRun .spt = false ∧
    served p .spt = true ∧ bankPending p .spt = true ∧ served l .spt = true ∧ bankPending l .spt = false ∧
    (l.req .spt).last = some (mget dZero (l.req .spt).bank 1) ∧
    (tRun.req .spt).last ≠ some (mget dZero (tRun.req .spt).bank 1) ∧ commandable tRun .spt = true ∧
    ({ tRun with ring := { job := some tMsg } } : State).ring.job = some tMsg := by decide

theorem test_witness_units :
    let give : State := tArgs [0, 0, 0x000D]
    let free : State := tArgs [0x4C, 0] (tUnit 0x4C { fenced := true })
    let fence : State := tArgs [0x5A, 0]
    commandable give .spt = true ∧ unitNamed 0 = true ∧ unitNamed 0x5A = true ∧ unitNamed 0x5B = false ∧ unitNamed 0xFE = true ∧
    bankArg give .spt 1 = (give.unit 0).gen.setWidth 16 ∧ (give.unit 0).busy = false ∧
    (give.unit 0).owner ≠ .sequencer ∧ (give.unit 0).fenced = false ∧ reqOwns .spt (give.unit 0) = true ∧
    bankArg give .spt 2 &&& 0xFFC0 = 0 ∧ field (bankArg give .spt 2) 1 0 = 1 ∧ field (bankArg give .spt 2) 5 2 = 3 ∧
    (free.unit 0x4C).fenced = true ∧ commandable free .spt = true ∧ bankArg free .spt 0 = 0x4C ∧
    canFence 0x5A = true ∧ (fence.unit 0x5A).code ≠ 0xE ∧ commandable fence .spt = true ∧
    commandable (tArgs [0, 0x0100]) .spt = true ∧ bankArg (tArgs [0, 0x0100]) .spt 1 &&& 0xFF00 ≠ 0 ∧
    commandable (tArgs [0x5B]) .spt = true ∧ bankArg (tArgs [0x5B]) .spt 0 = 0x5B ∧
    (({ tUnit 0x80 { code := 1, fenced := true } with mea := { taps := [(0, some tTap)] } } : State).tap 0).isSome = true := by
  decide

theorem test_witness_commits :
    let h : List DHolder := [{ holder := .unit 0, group := 0, gen := 0 }]
    let ok : State := { tRun with draught := [{ addr := 0x1002, word := 3000, group := 0 }], holders := h }
    let stale : State := tUnit 0 { gen := 1 } ok
    commandable tRun .spt = true ∧ bankArg tRun .spt 0 ≤ 7 ∧ groupEntries tRun 0 = [] ∧ commandable stale .spt = true ∧
    groupEntries stale 0 ≠ [] ∧ (commitFailure (setBank stale .spt 0 0x0201) (groupEntries stale 0)).isSome = true ∧
    commandable ok .spt = true ∧ groupEntries ok 0 ≠ [] ∧
    commitFailure (setBank ok .spt 0 0x0201) (groupEntries ok 0) = none := by decide

theorem test_witness_canonical : Canonical tRun ∧
    Canonical { tRun with draught := [{ addr := 0x1002, word := 3000, group := 0 }]
                          holders := [{ holder := .unit 0, group := 0, gen := 0 }] } := by
  constructor <;> constructor <;> decide

theorem test_witness_draught_and_log :
    let h : List DHolder := [{ holder := .unit 0, group := 0, gen := 0 }]
    let d : State := tArgs [0x1002] { tRun with draught := [{ addr := 0x1002, word := 3000, group := 0 }], holders := h }
    let u : State := tArgs [0xFFFF]
    let full : State := tRegs [(0x0C00, 1), (0x0C04, 4095)] tRun
    commandable d .spt = true ∧ (d.staged 0x1002).isSome = true ∧ holderOf 0x1002 = some (.unit 0) ∧
    d.holding (.unit 0) = some { holder := .unit 0, group := 0, gen := 0 } ∧ bankArg tRun .spt 0 ≤ 7 ∧
    tRun.staged 0 = none ∧ readCode tRun .spt 0 = 0 ∧ (regInfo (bankArg u .spt 0).toNat).acc = .unmapped ∧
    logFull tRun = false ∧ tRun.logLost = 0 ∧ commandable full .spt = true ∧ logFull full = true ∧
    admitted tRun .spt = true ∧ (0x0FFF : Word) ≤ 0x0FFF := by decide

-- witnesses: rails, supervisors, the cold stop and faults

theorem test_witness_rail_progress :
    let c (k : BitVec 4) (x : Rail) : State := (tUnit 0 { code := k, busy := true }).setRail 0 x
    let j (r : Bool) : State := (c 3 {}).setSlot 0 { inflight := [(1, 0), (2, 1)], unrep := r }
    let g : State := tRegs [(0x1001, 0x0010)] tRun
    ((c 2 {}).unit 0).code = 2 ∧ ((c 2 {}).rail 0).checked = false ∧ ((c 2 { checked := true }).rail 0).checked = true ∧
    ((c 3 {}).unit 0).code = 3 ∧ ((c 5 {}).unit 0).code = 5 ∧ ((c 6 {}).unit 0).code = 6 ∧
    ((j false).slot 0).inflight.filter (fun p => p.2 = 0) = [(1, 0)] ∧ ((j false).slot 0).unrep = false ∧
    ((j true).slot 0).unrep = true ∧ ((j true).slot 1).inflight.filter (fun p => p.2 = 0) = [] ∧
    ((tUnit 0x17 { code := 6 }).unit 0x17).code = 6 ∧ ((c 6 {}).rail 0).hushed = false ∧ isFollower tRun 0 = false ∧
    isFollower (tUnit 1 { code := 7 } g) 1 = true := by decide

theorem test_witness_hushes :
    let s (x : Rail) (k : Conv) : State := ((tRegs [(0x1001, 0x40), (0x1002, 3000), (0x100F, 10)] (tUnit 0 { code := 4 })).setRail
      0 x).setConv 0 k
    let a : Conv := { hush := .asked, rail := 0 }
    let h : State := s { hushed := true } { a with hush := .hushed }
    ((s {} a).unit 0).code = 4 ∧ ((s {} a).unit 0).busy = false ∧ bit ((s {} a).reg 0x1001) 6 = true ∧ (tRun.unit 0).code ≠ 4 ∧
    ((s {} a).rail 0).hushed = false ∧ (((s {} a).conv 0).hush = .asked ∧ ((s {} a).conv 0).rail = 0) ∧
    (h.rail 0).hushed = true ∧ (0 : Word).toNat + 10 * (effReg h 0 0xF).toNat < (effReg h 0 2).toNat ∧
    (effReg h 0 2).toNat ≤ (2900 : Word).toNat + 10 * (effReg h 0 0xF).toNat := by decide

/-- Readings at the edges of the nine detections: VSET 0.3 V, OCP 100 mA, IMGAIN and IMOFS at 1 and 0, OT 0 °C. -/
theorem test_witness_detections :
    let s (k : BitVec 4) (x : Rail := {}) : State := (tRegs [(0x1001, 0x80), (0x1002, 3000), (0x1006, 0), (0x1009, 10), (0x100A, 1),
      (0x100B, 0), (0x1010, 0)] (tUnit 0 { code := k })).setRail 0 x
    let gain : Int := ((s 4).reg 0x100A).toNat
    let above (v : Nat) : Int := 100 * ((v : Int) - 1000 * ((s 4).reg 0x100B).toNat)
    (∀ k ∈ [2, 3, 4, 5, 6], ((s k).unit 0).code = k) ∧ gangOf (s 4) 0 = 0 ∧ (effReg (s 4) 0 9).toNat = 10 ∧
    max 3000 3000 * (256 + (effReg (s 4) 0 6).toNat % 256) < 3001 * 256 ∧
    2999 * 256 < 3000 * (256 - (effReg (s 4) 0 6).toNat / 256) ∧ 2 * 10 * gain < 2 * above 1 ∧ ¬(2 * 10 * gain < 2 * above 0) ∧
    3 * 10 * gain < 2 * above 1 ∧ 749 * 4 < 3000 ∧ 1499 * 2 < 3000 ∧ above 0 < 10 * gain ∧ ((s 2).rail 0).checked = false ∧
    (effReg (s 4) 0 1).toNat.testBit 7 = true ∧ 8000 * ((effReg (s 4) 0 0x10).toNat : Int) < 600001 - 600000 ∧
    ((s 2 { tracking := true }).rail 0).tracking = true ∧
    10 * ((effReg (s 2) 0 0xC).toNat / 256) < (((0xFFFF : Word).toNat : Int) - 0).natAbs ∧
    (∀ k ∈ [0, 1, 7, 0xF], ((s k).unit 0).code = k) ∧ (s 0).snap = none ∧
    (let t := tRegs [(0x100C, 1)] (s 6); (t.unit 0).code = 6 ∧ field (t.reg 0x100C) 1 0 ≠ 0) := by decide

theorem test_witness_same_cycle :
    let z : StopSnap := { units := [(0, { code := 3 })], rails := [], ldos := [], regs := [] }
    let s : State := { tUnit 0 { gen := 1 } with snap := some z }
    s.snap = some z ∧ (s.unit 0).code = 0 ∧ (s.unit 0).gen = (mget dUnit z.units 0).gen + 1 ∧
    (mget dUnit z.units 0).code = 3 := by decide

/-- Supervisor 0 with EN, FILT 0, OV 2 and UV 1 (in 1.5 mV) and no hysteresis. -/
theorem test_witness_supervisors :
    let l (k : BitVec 4) : State := tUnit 0x10 { code := k }
    let v (c : Word) : State := tRegs [(0x1501, c), (0x1502, 2), (0x1503, 1)] tRun
    ((l 2).unit 0x10).code = 2 ∧ ((l 4).unit 0x10).code = 4 ∧ ((l 4).ldo 0).pg = false ∧ bit ((v 0x7D).reg 0x1501) 0 = true ∧
    bit ((v 0x7D).reg 0x1501) 1 = false ∧ bit ((v 0x7F).reg 0x1501) 1 = true ∧ ((v 0x7D).sup 0).ov = false ∧
    ((v 0x7D).sup 0).uv = false ∧ uvArmed (v 0x7D) 0 = true ∧ bit ((v 0).reg 0x1501) 0 = false ∧
    ((v 0x7D).reg 0x1501).toNat / 128 % 256 + 1 ≤ 1 ∧ 1500 * ((v 0x7D).reg 0x1502).toNat < 3001 ∧
    ¬(1500 * ((v 0x7D).reg 0x1502).toNat < 3000) ∧ 1499 < 1500 * (((v 0x7D).reg 0x1503).toNat % 4096) ∧
    2999 + 1500 * (((v 0x7D).reg 0x1503).toNat / 4096) < 1500 * ((v 0x7D).reg 0x1502).toNat ∧
    1500 * (((v 0x7D).reg 0x1503).toNat % 4096 + ((v 0x7D).reg 0x1503).toNat / 4096) < 1501 := by decide

theorem test_witness_conditions :
    let p (k : Nat) : State := tRun.setFlt k { present := true }
    tRun.present 2 1 = false ∧ (p 0x201).present 2 1 = true ∧ tRun.present 2 0 = false ∧ (p 0x200).present 2 0 = true ∧
    tRun.present 2 2 = false ∧ (p 0x202).present 2 2 = true ∧ tRun.present 0 0 = false ∧ (p 0).present 0 0 = true ∧
    (tRun.reg 0x0805).toNat ≤ 125 ∧ 0 < (tRun.reg 0x0805).toNat ∧ tRing.ring.live = true ∧ tRing.present 0 5 = false ∧
    tRing.present 0 6 = false ∧ tRun.ring.live = false ∧ (-1001 : Int) < -1000 ∧ 1500 ≤ 3600 ∧ 1499 < 1500 ∧
    (tRun.flt 0x000).present = false ∧ ((p 0).flt 0).present = true ∧ ((p 0x905).flt 0x905).present = true := by decide

theorem test_witness_occurrences :
    let o (c r : Nat) (u : Option Nat) : Occ :=
      { cls := c, src := r, det := 0, unit := u, gen := 0, time := 0, inj := false, stop := some 0, hold := 1 }
    let s (c r : Nat) (u : Option Nat) : State := { tRun with occs := [o c r u] }
    let six : State := { s 9 0xFF none with flvl := [(0x9FF, 6)] }
    let eng : State := { (s 7 0 (some 0x38)).setEng 0 { xcpt := some (.illegal, false) } with flvl := [(0x700, 4)] }
    collecting (s 0 0 none) = true ∧ (s 0 0 none).occs[0]? = some (o 0 0 none) ∧
    (mget dLvl (s 0 0 none).flvl 0).toNat < 6 ∧ (s 0 0 none).unack.getLsbD 0 = false ∧
    ({ s 0 0 none with unack := 1 } : State).unack.getLsbD 0 = true ∧
    collecting six = true ∧ (mget dLvl six.flvl 0x9FF).toNat = 6 ∧ six.unack.getLsbD 9 = false ∧
    collecting eng = true ∧ canFence 0x38 = true ∧ (mget dLvl eng.flvl 0x700).toNat = 4 ∧
    (eng.eng 0).xcpt = some (.illegal, false) := by decide

theorem test_witness_acknowledgement :
    let r (n : Nat) : State := tUnit n { code := 0xE }
    admitted tRun .spt = true ∧ (0x03FF : Word) ≤ 0x03FF ∧ (∀ n ∈ [0x38, 0x57, 0x58, 0x5A], ((r n).unit n).code = 0xE) ∧
    (tRun.unit 0).code ≠ 0xE ∧ tRun.errnHold = 0 ∧ ({ tRegs [(0x0800, 1)] tRun with errnHold := 1 } : State).errnHold ≠ 0 ∧
    bit ((tRegs [(0x0800, 1)] tRun).reg 0x0800) 0 = true := by decide

theorem test_witness_records :
    let due : State := tArgs [0x5E7A] { tRun with recsDue := [List.replicate 44 0] }
    due.recsDue = [List.replicate 44 0] ∧ (List.replicate 44 (0 : Word)).length = 44 ∧ tRun.recsDue = [] ∧
    commandable (tArgs [0x5E7A]) .spt = true ∧ bankArg (tArgs [0x5E7A]) .spt 0 = 0x5E7A ∧ commandable due .spt = true ∧
    due.recsDue ≠ [] ∧ bankArg tRun .spt 0 ≠ 0x5E7A ∧ bankArg tRun .spt 0 &&& 0xF000 = 0 ∧
    bankArg tRun .spt 1 &&& 0xFF00 = 0 ∧ (srcInfo 0 0).isSome = true ∧ (srcInfo 9 6).isNone = true := by decide

-- witnesses: the sequencer, STOP_N and the load command ports

theorem test_witness_sequencer :
    let q (k : BitVec 3) : State := { tRun with seq := { st := k } }
    let b : State := { tRegs [(0x1601, 2)] tRun with stopN := { low := true } }
    commandable (q 6) .spt = true ∧ ¬(bit ((q 6).reg 0x1601) 1 = true ∧ stopLow (q 6) = true) ∧ (q 3).seq.st = 3 ∧
    (bit (b.reg 0x1601) 1 = true ∧ stopLow b = true) ∧ commandable b .spt = true ∧
    bankArg (tArgs [0x5709]) .spt 0 = 0x5709 ∧ bankArg tRun .spt 0 ≠ 0x5709 := by decide

theorem test_witness_steps :
    let s (ws : Map Word) (x : SeqSt) : State := { tRun with seq := x, seqTab := ws }
    let u (s : State) : Word × Word := (mget dZero s.seqTab 0, mget dZero s.seqTab 3)
    let on : State := s [(0, 1), (1, 1), (3, 1)] { st := 1 }
    let off : State := s [(0, 2), (1, 2), (3, 1)] { st := 1 }
    let barrier : State := s [(1, 5), (3, 1)] { st := 3 }
    on.seq.entered = false ∧ field (u (s [(0, 3)] { st := 1 })).1 1 0 = 3 ∧ field (u (s [] { st := 1 })).2 13 0 = 0 ∧
    field (mget dZero barrier.seqTab 1) 3 0 = 5 ∧ barrier.supply.serOk = false ∧
    field (u on).1 1 0 = 1 ∧ field (u on).2 13 0 ≠ 0 ∧ bit (u on).1 2 = false ∧ field (u on).1 7 3 = 0 ∧
    isFollower on 0 = false ∧ railCode on 0 true none .on = 0 ∧
    railCode (tUnit 0 { busy := true } on) 0 true none .on = 0x0302 ∧
    railCode (tUnit 0 { code := 4 } on) 0 true none .on = 0x0201 ∧ railCode off 0 true none .off = 0x0201 ∧
    railCode (tUnit 0 { code := 6 } on) 0 true none .on = 0x0201 ∧
    (s [] { st := 1, retry := true }).seq.retry = true ∧ (s [] { st := 1, waiting := true }).seq.waiting = true ∧
    (s [] { st := 1, entered := true }).seq.entered = true ∧
    (let onfail (k : Word) : State := s [(0, 256 * k)] { st := 1 }
      ∀ k ∈ [0, 1, 2, 3], field (mget dZero (onfail (wd k)).seqTab 0) 9 8 = k) := by decide

theorem test_witness_window :
    let s (sel : Word) (x : BitVec 3) : State :=
      { tRegs [(0x1610, sel), (0x1611, 0), (0x1612, 0), (0x1613, 0)] tRun with seq := { st := x } }
    admitted (s 0x5F 0) .spt = true ∧ (0x015F : Word) &&& 0xFE80 = 0 ∧ field (0x015F : Word) 6 0 < 96 ∧
    96 ≤ field (0x0060 : Word) 6 0 ∧ stepOk false 0 0 0 1 = true ∧ seqRunning (s 0 0) = false ∧ seqRunning (s 0 1) = true ∧
    stepOk false 0 0 0 0x8000 = false ∧ ¬((0x0400 : Word) &&& 0xFC00 = 0) ∧ field (0x0403 : Word) 1 0 = 3 ∧
    field (0x0400 : Word) 1 0 ≠ 3 ∧ stepOk false 3 0 0 0 = true ∧ stepOk false 0x0403 0 0 0 = false := by decide

theorem test_witness_stop_line :
    let s (x : Line) : State := { tRegs [(0x1601, 2)] tRun with stopN := x }
    (s {}).stopN.drv = false ∧ (s {}).stopN.timed = false ∧ bit ((s {}).reg 0x1601) 1 = true ∧
    (s { drv := true }).stopN.drv = true ∧ (s { timed := true }).stopN.timed = true ∧ bit (tRun.reg 0x1601) 1 = false := by
  decide

theorem test_witness_lcp :
    let s : State := tRegs [(0x1801, 1), (0x1803, 0xF), (0x1002, 3000)] (tUnit 0 { owner := .port })
    let body (cmd v : Nat) : Nat := 0x5A * 2 ^ 24 + cmd * 2 ^ 18 + 2 ^ 16 + v
    let q (cmd v : Nat) : LcpReq := { samples := bitsOf 40 (body cmd v * 256 + (crc8 32 (body cmd v)).toNat), inTime := true
                                      delivered := true }
    bit (s.reg 0x1801) 0 = true ∧ (s.port 0).active = false ∧ (s.port 0).hist = 0xFF ∧
    (∀ c ∈ [0, 1, 2, 3, 4, 5], (q c 0).samples = lcpEncode 0 c 1 0) ∧ bit (s.reg 0x1803) 0 = true ∧
    bit (tRun.reg 0x1803) 0 = false ∧ 1 < (2 : Word).toNat ∧ (0 : Byte) ≠ crc8 32 (body 0 0) ∧ bit (tRun.reg 0x1801) 0 = false ∧
    field (s.reg 0x1801) 7 4 = 0 ∧ field ((tRegs [(0x1801, 0x11)] s).reg 0x1801) 7 4 = 1 ∧
    ownerIs (s.unit 0) .port 0 = true ∧ railCode s 0 true (some 0) .on = 0 ∧ railCode s 0 true (some 0) .off ≠ 0 ∧
    railCode s 0 true (some 0) (.setv 3000) = 0 ∧ (s.unit 0x3C).fenced = false ∧ vsetOk 0 55000 = true ∧
    vsetOk 0 55001 = false ∧ vsetOk 0 2999 = false := by
  decide +kernel

theorem test_witness_rail_requests :
    let c (k : BitVec 4) (x : Rail := {}) : State := (tUnit 0 { code := k, owner := .engine }).setRail 0 x
    let w : State := tUnit 1 { code := 2 } (tRegs [(0x100C, 0x0005)] (c 0))
    waitsForSource (c 0) (fun _ => false) 0 = false ∧ (∀ n, n < 16 → ((c 0).unit n).code ≠ 1) ∧
    waitsForSource (tUnit 1 { code := 0 } w) (fun _ => false) 0 = true ∧ ((c 4).unit 0).code = 4 ∧
    ((c 4 { hushed := true }).rail 0).hushed = true ∧ ((c 1).unit 0).code = 1 ∧ ((c 7).unit 0).code = 7 ∧
    switchOnBlocked (c 0) = false ∧ (tUnit 0 { code := 4, busy := true }).unit 0 = { code := 4, busy := true } := by decide

theorem test_witness_outcomes :
    let s : State := (tRegs [(0x1801, 1), (0x1803, 1), (0x1802, 0)] tRun).setSlot 0 { inflight := [(2, 0)] }
    let m : State := tRegs [(0x1801, 1), (0x1803, 1), (0x1802, 0)] tRun
    (s.slot 0).inflight.filter (fun y => y.2 = 0) ≠ [] ∧ (s.slot 0).unrep = false ∧ slotEnabled m 0 = true ∧ slotRail m 0 = 0 ∧
    (∀ j, j < 16 → (m.slot j).inflight.filter (fun y => y.2 = 0) = []) ∧ slotEnabled tRun 0 = false ∧
    bit (tRun.reg 0x1801) 0 = false := by decide

-- witnesses: start-up, resets and the loader

theorem test_witness_start :
    let p (x : Phase) : State := { State.reset with boot := { phase := x } }
    let l (w : Word) : State := { tRegs [(0x002B, w)] tLoad with boot := { phase := .load } }
    let good : Sfdp := { header := [0x53, 0x46, 0x44, 0x50, 6, 1, 0, 0xFF, 0, 6, 1, 16, 0x30, 0, 0, 0xFF], table := [] }
    (∀ x ∈ [Phase.supply, .oscillator, .otpSensing, .retention], (p x).boot.phase = x) ∧ (p .otpSensing).boot.reset = none ∧
    ({ p .retention with boot := { phase := .retention, testmode := true } } : State).boot.testmode = true ∧
    tRun.boot.phase ≠ .supply ∧ (l 0).boot.phase = .load ∧ (l 0).boot.polled = false ∧
    field ((l 0x0700).reg 0x002B) 11 8 < 8 ∧ 8 ≤ field ((l 0x0800).reg 0x002B) 11 8 ∧
    good.header.take 4 = [0x53, 0x46, 0x44, 0x50] ∧ good.header.getD 10 0 = 1 ∧ (good.header.set 10 2).getD 10 0 ≠ 1 := by decide

theorem test_witness_resets :
    let r (c : RstCause) : State := { tRun with boot := { phase := .otpSensing, reset := some c } }
    tRun.boot.phase ≠ .supply ∧ tRun.boot.phase ≠ .oscillator ∧ tRun.boot.reset = none ∧ State.reset.boot.phase = .supply ∧
    mayAccess tRun .spt = true ∧ reqFenced tRun .spt = false ∧ (r .pin).boot.reset = some .pin ∧
    (r .soft).boot.reset = some .soft ∧ tRun.otp.kiln = none ∧ ({ tRun with supply := { vbatOk := true } } : State).supply.vbatOk =
    true ∧ tRun.supply.vbatOk = false := by decide

theorem test_witness_load :
    let b (n : Nat) : State := { tLoad with boot := { phase := .load, polled := true, bytes := n } }
    tLoad.boot.phase = .load ∧ tLoad.boot.polled = true ∧ (tLoad.unit 0x56).fenced = false ∧ 0 + 2 + 2 * [0x1002, 3000].length ≤ 65536 ∧
    (b 65530).boot.bytes + 2 + 2 * 2 ≤ 65536 ∧ writeCode tLoad .loader 0x1002 3000 = 0 ∧
    writeCode tLoad .loader 0x1002 0 ≠ 0 ∧ tLoad.reg 0x0024 = 0 ∧ (tRegs [(0x0024, 1)] tLoad).reg 0x0024 ≠ 0 ∧
    ((field (0x6001 : Word) 15 12 = 6) ∧ field (0x6001 : Word) 11 0 = 1) ∧ bit (tLoad.reg 0x002D) 0 = false ∧
    bit ((tRegs [(0x002D, 1)] tLoad).reg 0x002D) 0 = true ∧ tLoad.seq.st = 0 ∧
    ¬(bit (tLoad.reg 0x1601) 1 = true ∧ stopLow tLoad = true) ∧ (b 65536).boot.bytes = 65536 ∧
    (b 65532).boot.bytes + 2 * (([] : List Word).length + 2) = 65536 ∧ field (0x1FFF : Word) 15 12 = 1 ∧
    0 + 1 < field (0x1FFF : Word) 11 0 ∧ (b 65534).boot.bytes + 2 * (([] : List Word).length + 1) = 65536 ∧
    2 ≤ field (0x2003 : Word) 15 12 ∧ ([] : List Word).length < field (0x2003 : Word) 11 0 := by decide

-- witnesses: the charger

theorem test_witness_charger_phases :
    let r : State := tArgs [0] (tChg 6)
    ((tChg 2 { ingate := true }).unit 0x4D).code = 2 ∧ (tChg 2 { ingate := true }).chg.ingate = true ∧
    suspCause (tChg 2 { ingate := true }) false = 0 ∧ ((tChg 3).unit 0x4D).fenced = false ∧ (tChg 3).chg.vmaxCheck = 0 ∧
    10 * (((tRegs [(0x1A1E, 0xFFFF)] (tChg 4)).reg 0x1A08).toNat % 256) ≤
      ((tRegs [(0x1A1E, 0xFFFF)] (tChg 4)).reg 0x1A1E).toNat ∧
    ((tChg 4).reg 0x1A1E).toNat < 10 * (((tChg 4).reg 0x1A08).toNat % 256) ∧
    suspCause (tChg 8 { left := 4 }) ((tChg 8 { left := 4 }).chg.left == 2) = 0 ∧ 2 ≤ (tChg 8 { left := 4 }).chg.left ∧
    suspCause ((tChg 8).setFlt 0x301 { present := true }) false ≠ 0 ∧ (tChg 7).chg.batp = false ∧
    (tChg 7 { batp := true }).chg.batp = true ∧ commandable r .spt = true ∧ bankArg r .spt 0 = (r.unit 0x4D).gen.setWidth 16 ∧
    (r.unit 0x4D).fenced = false ∧ reqOwns .spt (r.unit 0x4D) = true ∧ (r.unit 0x4D).busy = false ∧ r.present 3 0 = false ∧
    r.present 3 3 = false ∧ r.present 2 1 = false ∧ r.chg.ingate = false := by decide

/-- A pack of one cell, TMIN 5 °C, TMAX 50 °C or 25 °C: readings at 25 °C that meet the clauses of a limit, a removed pack, the
end of PRECHARGE, −ΔV, dT/dt, a loss of input and a suspension. -/
theorem test_witness_readings :
    let s (k : BitVec 4) (g : Chg) : State := tRegs [(0x1A01, 0x00E0)] (tChg k g)
    let g : Chg := { ingate := true, fullRun := 600, vN := 9, peakSet := true, dvRun := 2, peak := 60000, phaseT := 100000 }
    let h : Chg := { ingate := true, tN := 99, tSum := 4000, tb10 := [0, 0, 0, 0, 0, 0, 0], phaseT := 100000 }
    let r (o : Nat) : Word := (s 4 g).reg (0x1A00 + o)
    let tmin : Int := ((r 0xA).setWidth 8).toInt * 16
    let tmax : Int := ((r 0xA).toNat / 256) * 16
    ((s 4 g).unit 0x4D).fenced = false ∧ tmin ≤ 400 ∧ (400 : Int) < tmax ∧
    (((tRegs [(0x1A0A, 0x1900)] (s 4 g)).reg 0x1A0A).toNat / 256 : Int) * 16 ≤ 400 ∧
    400 < (((tRegs [(0x1A0A, 0x321A)] (s 4 g)).reg 0x1A0A).setWidth 8).toInt * 16 ∧ 0 < (r 0xD).toNat % 1024 ∧ r 0xE ≠ 0 ∧
    (r 1).toNat / 2 % 16 + 1 = 1 ∧ 1500 ≤ 3600 ∧ 3600 < 3601 ∧ (2000 : Nat) ≤ 3600 ∧ 199 < 200 ∧
    (s 4 g).present 3 1 = false ∧ (s 4 g).present 3 2 = false ∧ (s 4 g).present 2 1 = false ∧ (s 4 g).present 2 0 = false ∧
    (r 7).toNat % 256 * 600 ≤ g.phaseT + 1 ∧ (r 1).toNat.testBit 5 = true ∧ (r 1).toNat.testBit 6 = true ∧
    g.vSum + 1500 + 10 * ((r 6).toNat % 32) ≤ g.peak ∧ h.tb10[5]? = some 0 ∧ 6 ≤ h.tb10.length ∧
    400 * (((r 6).toNat / 256 % 16 : Nat) : Int) ≤ h.tSum + 400 - 0 ∧
    (s 4 { vmaxCheck := 1 }).chg.vmaxCheck = 1 ∧ 95 * 1000 < 100 * 951 ∧ ¬(95 * 1000 < 100 * 950) ∧ (s 4 {}).chg.ingate = false ∧
    2 * (r 0x10).toNat ≤ 65535 := by decide

theorem test_witness_power_path :
    let t : State := tRegs [(0x1A01, 0x0100)] (tChg 4)
    decide (4500 ≤ 4500 ∧ 28500 ≤ 28500) = true ∧ ((tChg 3 { ingate := true }).unit 0x4D).code = 3 ∧
    (tChg 3 { ingate := true }).present 3 1 = false ∧ (tChg 3 { ingate := true }).present 3 2 = false ∧
    (tChg 3 { pathOn := true }).chg.pathOn = true ∧ (tChg 3).present 3 6 = false ∧ (tChg 3).present 3 0 = false ∧
    ((tChg 3).setFlt 0x300 { present := true }).present 3 0 = true ∧ (t.unit 0x4D).code = 4 ∧ t.chg.vmaxCheck = 0 ∧
    (t.reg 0x1A01).toNat / 256 % 4 = 1 ∧ (tChg 4 { scan := true }).chg.scan = true ∧ t.chg.scan = false ∧
    ((tChg 0).unit 0x4D).code = 0 ∧ (tChg 4 { lastP := some (1000, 1) }).chg.lastP = some (1000, 1) := by decide

-- witnesses: the router and the taps

theorem test_witness_router :
    let s : State := { tRun with irq := { clm := [(4, srcBit 0x100), (0, srcBit 0x17F)] } }
    let c : State := { tRun with irq := { pend := srcBit 0x100, en := [(4, srcBit 0x100)] } }
    let z : State := { tRun with irq := { asleep := true, saved := some { pend := 0, en := [], clm := [], pres := [], taken := [], holds := [] } } }
    let d : State := tRegs [(0x1D60, 1)] tRun
    admitted s .spt = true ∧ srcBit 0x100 &&& s.irq.awake.clmOf 4 ≠ 0 ∧ sourceNamed 0x100 = true ∧ sourceNamed 0x17F = true ∧
    sourceNamed 0x180 = false ∧ srcBit 0x101 &&& s.irq.awake.clmOf 4 = 0 ∧ (0xFFFF : Word) &&& ~~~(regInfo 0x1C10).mask = 0 ∧
    Req.spt.isMgmt = true ∧ (Req.engine 0).isMgmt = false ∧ admitted (tEng {}) (.engine 0) = true ∧
    lowest ((settleIrq { c with irq := c.irq.awake }).eligible 4) = some 0x100 ∧
    lowest ((settleIrq { tRun with irq := tRun.irq.awake }).eligible 4) = none ∧
    z.irq.asleep = true ∧ z.irq.saved.isSome = true ∧ bit (d.reg 0x1D60) 0 = true ∧ d.irq.asleep = false ∧
    (settleIrq d).claimed = 0 ∧ (settleIrq d).eligible 4 = 0 ∧ (settleIrq d).eligible 5 = 0 ∧
    (∀ n, n < 4 → (d.unit (0x38 + n)).code = 0) := by decide +kernel

theorem test_witness_pending :
    let s : State := { tRun with rtc := { lock := false }, irq := { asrt := srcBit 0 } }
    let f : State := { tRun with unack := 1 }
    exec (.faultConditionClear 0 0 0) f = .next (settle f) ∧ (settle f).irq.asleep = false ∧ asserted (settle f) 0 = true ∧
    (settle f).irq.claimed.getLsbD 0 = false ∧ s.irq.asrt.getLsbD 0 = true ∧ asserted s 0 = false ∧
    s.irq.claimed.getLsbD 0 = false ∧ s.irq.asleep = false ∧
    (tRegs [(0x1D50, 3)] tRun).extLvl.getLsbD 0 ≠ true := by
  refine ⟨rfl, ?_⟩
  decide +kernel

theorem test_witness_taps :
    let a (l : List Word) : State := tArgs l (tRegs [(0x3000, 0x0105)] (tUnit 0x4E { code := 1 }))
    let o : State := { a [] with mea := { taps := [(0, some { tTap with queue := [tBlock] })], gen := [] } }
    commandable (a [0, 0xF00, 1, 0, 1]) .spt = true ∧ bankArg (a [0]) .spt 0 = (devId (a [0])).setWidth 16 ∧
    (chooseConv (a []) 0).isSome = true ∧ freeTap (a []) = some 0 ∧ (currentTap o 0).isSome = true ∧
    (o.unit 0x80).fenced = false ∧ reqOwns .spt (o.unit 0x80) = true ∧ currentTap o 1 = none ∧
    (bankArg (tArgs [1]) .spt 0).setWidth 8 ≠ devId tRing ∧ ringReach tRing 1 = true ∧ tRing.ring.pend.length < 8 ∧
    selQueue tRun .spt = none ∧ (selQueue (o.setReq .spt { selH := 0 }) .spt).isSome = true ∧
    selQueue ({ o with mea := { o.mea with taps := [(0, some tTap)] } }.setReq .spt { selH := 0 }) .spt = some [] := by decide

theorem test_witness_open :
    let s : State := tArgs [0, 0xF00, 1, 0, 1] (tRegs [(0x3000, 0x0105)] (tUnit 0x4E { code := 1 }))
    tapArgCode s (bankArg s .spt) = 0 ∧ chooseConv s 0 = some 0 ∧ convFits s 0 0 = true ∧
    (allocBlock (setBank s .spt 0 0x0501) (acctOf .spt)).isSome = true ∧ tRun.tap 0 = none := by decide

theorem test_witness_samples :
    let u (k : BitVec 4) (r : Word) : State := tRegs [(0x3000, r)] (tUnit 0x4E { code := k })
    let t (x : Tap) : State := { tRun with mea := { taps := [(0, some x)] } }
    ((u 2 2).unit 0x4E).code = 2 ∧ ((u 2 2).unit 0x4E).fenced = false ∧ proofRun (u 2 2) = 0 ∧ bit ((u 2 2).reg 0x3000) 1 = true ∧
    ((u 1 2).unit 0x4E).code ≠ 2 ∧ (t tTap).tap 0 = some tTap ∧ tTap.skip ≤ 1 ∧ 1 < { tTap with skip := 2 }.skip ∧
    0x8000 ≤ ({ tTap with dest := 2, arg4 := 0x8000 } : Tap).arg4 ∧ tTap.cur = none ∧ tTap.arg4.toNat ≤ [tBlock].length ∧
    tTap.queue.length < tTap.arg4.toNat ∧ (allocBlock tRun 0).isSome = true ∧ tBlock.data ≠ [] ∧
    (List.replicate 53 (0 : Word)).length < 54 ∧ tRun.mea.extrefOk = false ∧
    ({ tRun with mea := { extrefOk := true } } : State).mea.extrefOk = true ∧
    ((boundTaps { u 2 2 with mea := { taps := [(0, some { tTap with hush := true })] } } 0).any fun p =>
      p.2.hush && decide (p.2.src < 0x20) && p.2.src.toNat % 16 == 0) = true := by decide

-- witnesses: the ring

/-- A ring with every lane UP, this device (ID 0) its master, and devices 0 and 1 present. -/
def tLanes (g : Ring) : State :=
  tUnit 0x48 { code := 2 } (tUnit 0x49 { code := 2 } (tUnit 0x4A { code := 2 } (tUnit 0x4B { code := 2 }
    { tRegs [(0x4000, 0x0001)] tRun with ring := { g with live := true } })))

theorem test_witness_ring_links :
    let s : State := tLanes { goodW := 1000, goodE := 1000 }
    let u (k : BitVec 4) (f : Bool) : State := tUnit 0x49 { code := k, fenced := f } (tLanes {})
    (s.ring.live = true ∧ ((u 1 false).unit 0x49).code = 1 ∧ ((u 4 false).unit 0x49).fenced = false) ∧
    ((tUnit 0x4A { code := 4 } (u 1 false)).unit 0x4A).code = 4 ∧ 4 ≤ ({ losRun := 4 } : SideRx).losRun ∧
    ((s.unit 0x49).code = 2 ∧ (s.unit 0x4B).code = 2) ∧ ((u 0 false).unit 0x49).code = 0 ∧
    ((s.unit 0x48).fenced = false ∧ (s.unit 0x48).code = 2 ∧ (s.lane 0).cnt < 96) ∧ 1000 ≤ s.ring.goodW ∧ 1000 ≤ s.ring.goodE ∧
    (tLanes {}).ring.goodW < 1000 ∧ admitted s .spt = true ∧ ((u 5 false).unit 0x49).code = 5 ∧ tRun.ring.live = false ∧
    bit ((tRegs [(0x4040, 1)] tRun).reg 0x4040) 0 = true ∧ bit (tRun.reg 0x4040) 0 = false ∧ (tRun.unit 0x48).code = 0 := by decide

theorem test_witness_ring_time :
    let d : SideRx := { named := some 1, namedRun := 64 }
    let s : State := tLanes { west := d, east := d, master := some 1, nameAge := 16 }
    let m : State := tRegs [(0x4000, 0x0019), (0x5890, 1), (0x5891, 3)] (tLanes { master := some 0 })
    ringOn s = true ∧ laneCarries s 0 = true ∧ laneCarries s 2 = true ∧ (s.ring.west.named = some 1 ∧ 64 ≤ s.ring.west.namedRun) ∧
    s.ring.master ≠ none ∧ 16 ≤ s.ring.nameAge ∧ ¬(16 ≤ (tLanes { master := some 1 }).ring.nameAge) ∧
    ringMaster m = true ∧ bit (m.reg 0x4000) 3 = true ∧ bit (m.reg 0x4000) 4 = true ∧ ringTimeOk m = true ∧
    m.present 9 2 = false ∧ ringMaster s = false ∧ ringWaiting m 0 = 0 ∧
    1000 ≤ mget dNat (tLanes { barRun := [(0, 1000)] }).ring.barRun 0 ∧ mget dNat m.ring.barRun 0 < 1000 ∧
    commandable m .spt = true ∧ m.ring.tset = none ∧ commandable s .spt = true ∧
    (tLanes { tset := some (1, some .spt) }).ring.tset = some (1, some .spt) := by decide

theorem test_witness_ring_received :
    let s : State := tLanes { master := some 1, wrap := false }
    let b : Beacon := { master := 1, pri := 0, mvalid := true, wrap := false, tvalid := true, losrep := true, hops := 0, sender := 1,
                        cycle := 7, tTx := 0, tRx := 0, cycRx := 3, slice := 0, release := 0, fecrep := 0 }
    let m : State := s.setLane 3 { sentAt := [(4, 100), (3, 50)] }
    (ringOn s = true ∧ (s.unit 0x48).fenced = false ∧ ((s.unit 0x48).code = 2 ∨ (s.unit 0x48).code = 3)) ∧
    beaconOf (beaconBytes b) = some b ∧ ringMaster s = false ∧ (m.lane 3).sentAt = [(4, 100)] ++ (3, 50) :: [] ∧
    (∀ y ∈ [((4 : BitVec 32), (100 : Int))], y.1 ≠ b.cycRx) ∧ (∀ y ∈ (s.lane 3).sentAt, y.1 ≠ b.cycRx) ∧
    (s.lane 0).cnt < 256 ∧ (tLanes { quiet := 512 }).ring.quiet = 512 ∧ ringOn tRun = false ∧
    containerOf (containerBytes { src := 1, dst := 0, stream := false, frag := 0, present := true, seq := 0, payload := []
                                  barrier := 0, waiting := false }) =
      some { src := 1, dst := 0, stream := false, frag := 0, present := true, seq := 0, payload := [], barrier := 0
             waiting := false } := by decide +kernel

theorem test_witness_ring_measured :
    let ps : Int := 16777216
    ((200000 * ps - 1).natAbs : Int) < 200000 * ps ∧ ((20000000 * ps - 1).natAbs : Int) < 20000000 * ps ∧
    20000000 * ps ≤ ((20000000 * ps).natAbs : Int) ∧ tRun.ring.okRun ≤ 16 := by decide

theorem test_witness_ring_sent :
    let f : HeldCycle := { cyc := 7, hops := 1, wrap := false, slice := 3, emergency := List.replicate 16 0
                           slots := List.replicate 55 emptySlot, conts := [] }
    let s : State := tLanes { master := some 1, held := [(0, [f])] }
    let m : State := tLanes { master := some 0 }
    ringOn s = true ∧ laneCarries s 1 = true ∧ ringMaster m = true ∧ mget dHeld m.ring.held 0 = [] ∧ ringMaster s = false ∧
    mget dHeld s.ring.held 0 = [f] ∧ ((tUnit 0x49 { code := 3 } s).unit 0x49).code = 3 ∧ (s.unit 0x49).code ≠ 3 ∧
    (mget dNat (tLanes { estopTx := true, estopN := [(0, 255)] }).ring.estopN 0 < 256) ∧
    ¬(mget dNat (tLanes { estopTx := true, estopN := [(0, 256)] }).ring.estopN 0 < 256) ∧
    (tLanes { dup := true }).ring.dup = true ∧ ((selfCandidate m).isSome = true ∨ selfCandidate m = none) := by decide +kernel

theorem test_witness_ring_requests :
    let s (l : List Word) (g : Ring := {}) : State := tArgs l (tLanes { g with master := some 1, age := [(0, 0), (1, 0)] })
    let r (k : Byte) : Msg := { tMsg with kind := k, tag := 5 }
    commandable (s [1, 0x1000, 1]) .spt = true ∧ (1 ≤ (bankArg (s [1, 0x1000, 1]) .spt 2).toNat ∧
      (bankArg (s [1, 0x1000, 4]) .spt 2).toNat ≤ 4 ∧ (bankArg (s [1, 0x1000, 5]) .spt 2).toNat ≤ 5) ∧
    (bankArg (s [1]) .spt 0).setWidth 8 ≠ ringSelf (s [1]) ∧ ringReach (s [1]) 1 = true ∧ ringReach (s [9]) 9 = false ∧
    (s [1]).ring.pend.length < 8 ∧ ¬((s [1] { pend := List.replicate 8 tPend }).ring.pend.length < 8) ∧
    (bankArg (s [1, 0x0101]) .spt 1).toNat / 256 ≠ 6 ∧ (bankArg (s [1, 0x0601]) .spt 1).toNat / 256 = 6 ∧
    (s [1] { pend := [tPend] }).ring.pend[0]? = some tPend ∧ (s [] { inM := [r 9] }).ring.inM = [r 9] ∧
    (true && tPend.dst == (r 9).src && (5 : Byte) == (r 9).tag && tPend.kind + 8 == (r 9).kind) = true ∧
    (s [] { inM := [r 1] }).ring.inM = [r 1] ∧ admitted (s []) .ring = true ∧ (s []).ring.dup = false ∧
    bankPending (s []) .ring = false ∧ bankPending (setBank (s []) .ring 0xA 1) .ring = true ∧
    mget dKept (s []).ring.kept 1 = none ∧
    mget dKept (s [] { kept := [(1, some (5, tMsg))] }).ring.kept 1 = some (5, tMsg) ∧ servesAccesses State.reset = false := by
  decide

-- witnesses: the floor bus

theorem test_witness_floor_traffic :
    let s (k : BitVec 4) (f : Floor := {}) : State := tUnit 0x4C { code := k } { tRegs [(0x4800, 0x0003)] tRun with
      floor := { f with timed := k != 1 } }
    let b : FloorBeacon := { src := 1, pri := 1, ringt := false, cycle := 7, release := 0 }
    let x : FloorFrame := { src := 1, claim := true, waiting := true, alarm := true, tvalid := false, bar := 3, pri := 1, repk := 1
                            rep := 0, mgmt := none }
    let chars (bs : List Byte) : List FloorChar := bs.map fun d => { data := d, stop := true, gap := 8 }
    ((s 2 { master := true }).floor.master = true ∧ (s 2).floor.timed = true ∧ ((s 2).unit 0x4C).code = 2) ∧
    floorBeaconOf [] = none ∧ floorBeaconOf (chars (floorBeaconBytes b)) = some b ∧ ((s 1).unit 0x4C).code = 1 ∧
    floorFollows (s 2) = true ∧ floorFollows (s 2 { master := true }) = false ∧ floorCandidate (s 1) ≠ none ∧
    (s 1).floor.mute = false ∧ (s 1).floor.dup = false ∧ floorFrameOf [] = none ∧
    floorFrameOf (chars (floorFrameBytes x)) = some x ∧ 320 < (321 : Int).natAbs ∧ (-320 : Int).natAbs ≤ 320 ∧
    80 < (81 : Int).natAbs ∧ x.repk ≠ 0 ∧ x.rep = (tRun.reg 0x0040).setWidth 8 ∧ (s 2 { stopReq := true }).floor.stopReq = true ∧
    (400 ≤ 400 ∧ 1199 + 400 < 1600 ∧ 1600 ≤ 1200 + 400) ∧ ((s 4).unit 0x4C).code = 4 ∧ floorWaiting (s 2) 0 = 0 ∧
    100 ≤ mget dNat (s 2 { barRun := [(0, 100)] }).floor.barRun 0 ∧ admitted (s 2) .spt = true := by decide +kernel

theorem test_witness_floor_cycles :
    let s (f : Floor) : State := tUnit 0x4C { code := 2 } { tRegs [(0x4800, 0x0003), (0x4840, 0x0002)] tRun with
      floor := { f with timed := true } }
    let me := floorCandidate (s {})
    (s {}).floor.timed = true ∧ ((s {}).unit 0x4C).code = 2 ∧ (s { hold := 15 }).floor.hold ≤ 15 ∧
    floorFollows (s { hold := 7 }) = true ∧ mget dAge (s { age := [(1, 15)] }).floor.age 1 = 15 ∧
    bit ((s {}).reg (0x4840 + 1 / 16)) (1 % 16) = true ∧ me ≠ none ∧ (s { claimed := true, claim := me }).floor.claim = me ∧
    betterOf me none = me ∧ (s { yieldNow := true }).floor.yieldNow = true ∧
    ((s { ownBeaconBad := true, badBeacons := 1 }).floor.badBeacons = 1) ∧
    ((s { ownBad := true, badFrames := 3 }).floor.badFrames = 3 ∧ (s {}).floor.dup = false) ∧
    ((s { dup := true, quietSlot := 15 }).floor.quietSlot = 15 ∧ (s {}).floor.slotIntact = false) ∧ tRun.floor.timed = false := by
  decide

theorem test_witness_floor_requests :
    let s (l : List Word) (f : Floor := {}) : State := tArgs l (tUnit 0x4C { code := 2 } { tRegs [(0x4800, 0x0001)] tRun with
      floor := { f with timed := true, age := [(1, 0)] } })
    let r (k : Byte) : Msg := { tMsg with kind := k, tag := 5 }
    let x : FloorFrame := { src := 1, claim := false, waiting := false, alarm := false, tvalid := false, bar := 0, pri := 0, repk := 0
                            rep := 0, mgmt := some { r 9 with data := List.replicate 7 0 } }
    commandable (s [1, 0x1000, 1]) .spt = true ∧ (bankArg (s [1]) .spt 0).setWidth 8 ≠ ringSelf (s [1]) ∧
    (((s []).unit 0x4C).code = 2 ∧ floorPassive (s []) = false ∧ floorPresent (s []) 1 = true) ∧ floorPresent (s []) 9 = false ∧
    (((s []).unit 0x4C).fenced = false ∧ (s []).floor.pend.length < 4) ∧
    4 ≤ (s [] { pend := List.replicate 4 tPend }).floor.pend.length ∧
    ((tUnit 0x4C { code := 2, fenced := true } (s [])).unit 0x4C).fenced = true ∧
    (s [] { pend := [tPend] }).floor.pend[0]? = some tPend ∧ ((r 9).dst = ringSelf (s []) ∧ (1 : Byte) ≠ ringSelf (s [])) ∧
    floorFrameOf ((floorFrameBytes x).map fun d => { data := d, stop := true, gap := 0 }) = some x ∧
    admitted (s []) .floor = true ∧ bankPending (s []) .floor = false ∧ (r 1).count = 1 := by decide +kernel

-- witnesses: the SPI, I2C and UART ports

theorem test_witness_spi :
    let s (x : Spt) : State := { tRun with spt := x }
    let b : State := tRegs [(0x5000, 8), (0x5013, 0)] tRun
    let o : Spt := { active := true, count := 1 }
    let word (n : Nat) : BitVec 32 := BitVec.ofNat 32 (n * 256 + (crc8 24 n).toNat)
    admitted tRun .spt = true ∧ (tRun.unit 0x56).fenced = false ∧ ¬(bit (tRun.reg 0x5000) 3 = true) ∧
    ((tUnit 0x56 { fenced := true }).unit 0x56).fenced = true ∧ bit (b.reg 0x5000) 3 = true ∧
    (b.reg 0x5013).toNat / 256 % 4 = 0 ∧ (servesAccesses tRun = true ∧ (tRun.unit 0x57).code ≠ 0xE) ∧ (s {}).spt.active = false ∧
    ((s o).spt.active = true ∧ (s o).spt.op = 0) ∧ (s o).spt.crcOn = false ∧
    crc8 24 (word 0x100010 >>> 8).toNat = (word 0x100010).setWidth 8 ∧ (word 0x100010).toNat / 2 ^ 28 = 1 ∧
    (word 0x200010).toNat / 2 ^ 28 = 2 ∧ (word 0x300010).toNat / 2 ^ 28 ≠ 1 ∧ (word 0x300010).toNat / 2 ^ 28 ≠ 2 ∧
    ¬(crc8 24 ((0x10001000 : BitVec 32) >>> 8).toNat = (0x10001000 : BitVec 32).setWidth 8) ∧
    (let r : State := s { o with op := 2, ready := [5] }; r.spt.idx ≠ r.spt.count ∧ r.spt.idx < 16 ∧ r.spt.ready = [5]) ∧
    (s { o with op := 2, asked := true }).spt.asked = true ∧ (s { late := [(1, none)] }).spt.late = [(1, none)] ∧
    (let r : State := s { o with op := 1, held := [(0, 0), (1, 0)] }; 2 ≤ r.spt.held.length ∧ r.spt.op = 1 ∧ r.spt.idx ≠ r.spt.count) ∧
    (s { late := [(0, some 0)] }).spt.late = [(0, some 0)] ∧ (s { held := [(0x8000, 1)] }).spt.held = [(0x8000, 1)] ∧
    (busWrite (s {}) .spt 0x8000 1).2 = 0 ∧ (busWrite (s {}) .spt 0 1).2 ≠ 0 := by decide +kernel

theorem test_witness_i2c :
    let s (x : I2c) : State := { tUnit 0x58 { code := 1 } (tUnit 0x59 { code := 1 } tRun) with i2ca := x, i2cb := x }
    let z : I2cXfer := { addr := 0, wr := [1], rd := 2, recov := false, by_ := .spt }
    let go : I2c := { mbusy := true, xfer := some z }
    (servesAccesses (s {}) = true ∧ portUp (s { live := [1] }) .i2ca = true ∧ servesAccesses State.reset = false) ∧
    ((0 : BitVec 7) = (s {}).i2ca.addr ∧ (1 : BitVec 7) ≠ (s {}).i2ca.addr) ∧
    ((s { busy := true, mine := true, wr := true }).i2ca.busy = true ∧ (s { busy := true, mine := true, wr := true }).i2ca.mine =
      true ∧ (s { busy := true, mine := true, wr := true }).i2ca.wr = true) ∧
    (s { nacked := true }).i2ca.nacked = true ∧ (s {}).i2ca.nacked = false ∧ (s {}).i2ca.busy = false ∧
    admitted (s {}) .spt = true ∧ ((s {}).unit 0x58).fenced = false ∧ ((s {}).unit 0x59).fenced = false ∧
    ((s {}).reg 0x5209).toNat % 32 ≤ 16 ∧ ((s {}).reg 0x5209).toNat / 32 % 32 ≤ 16 ∧
    16 < ((tRegs [(0x5209, 17)] (s {})).reg 0x5209).toNat % 32 ∧
    bit ((s { live := [2] }).i2ca.live.getD 0 0) 1 = true ∧ bit ((s { live := [1] }).i2ca.live.getD 0 0) 1 = false ∧
    (s go).i2ca.xfer = some z ∧ (s go).i2ca.mbusy = true ∧ z.recov = false ∧ [(0 : Byte), 0].length = z.rd ∧
    ([] : List Byte).length ≠ z.rd ∧ ((0 : Fin 32).val < z.wr.length ∧ z.wr.length ≤ (1 : Fin 32).val) ∧
    (s { go with xfer := some { z with recov := true } }).i2cb.xfer = some { z with recov := true } ∧
    ((s { go with busy := true }).i2ca.busy = true ∧ (s { go with busy := true }).i2ca.mbusy = true) ∧
    ((s {}).i2ca.live.getD 4 0).toNat % 256 ≠ 0 ∧ ((s {}).i2ca.live.getD 4 0).toNat / 256 ≠ 0 ∧
    ((s { live := [] }).i2ca.live.getD 4 0).toNat % 256 = 0 ∧ ((s {}).i2ca.scl = false ∧ (s {}).i2ca.sda = false) ∧
    (s { scl := true, sda := true }).i2cb.scl = true := by decide

/-- A console READ of one word at 0x0000, with its CRC-16 worked out by `crc16`, and characters of each kind. -/
theorem test_witness_uart :
    let s (c : Word) (u : Uart := {}) : State := { tUnit 0x5A { code := 1 } tRun with uart := { u with cfg := c } }
    let body : List Byte := [7, 1, 1, 0, 0]
    let f : List Byte := ([0xA5] : List Byte) ++ body ++ [(crc16 body >>> 8).setWidth 8, (crc16 body).setWidth 8]
    let line (b : Byte) : List Bool := (uartBits 1 b).drop 1
    (servesAccesses (s 1) = true ∧ portUp (s 1) .uart = true) ∧ bit (3 : Word) 1 = true ∧ ¬(bit (1 : Word) 1 = true) ∧
    (uartCharOf 1 (List.replicate 9 false)).brk = true ∧ uartCharOf 1 (line 0x42) = { data := 0x42, fe := false, pe := false, brk := false } ∧
    (uartCharOf 1 (List.replicate 8 true ++ [false])).fe = true ∧ (s 1 { part := [0xA5, 7, 1] }).uart.part.length = 3 ∧
    16 ≤ (List.replicate 16 { data := 0, fe := false, pe := false, brk := false : UartChar }).length ∧ servesAccesses State.reset = false ∧
    (s 3 { left := 2 }).uart.left = 2 ∧ (s 3 { tx := [1] }).uart.tx = [1] ∧ admitted (s 3) .uart = true ∧
    ((s 3).unit 0x5A).fenced = false ∧ 16 ≤ (s 3 { tx := List.replicate 16 0 }).uart.tx.length ∧
    (tRun.uart.cfg = tRun.reg 0x5401 ∧ tRun.uart.div = tRun.reg 0x5402) ∧ (s 1).uart.cfg ≠ (s 1).reg 0x5401 ∧
    f.getD 0 0 = 0xA5 ∧ f.getD 2 0 = 1 ∧ f.getD 3 0 ≠ 0 ∧ f.getD 3 0 ≤ 16 ∧ f.length = 8 ∧
    f.drop (f.length - 2) = [(crc16 ((f.drop 1).take (f.length - 3)) >>> 8).setWidth 8,
      (crc16 ((f.drop 1).take (f.length - 3))).setWidth 8] ∧
    (s 1 { seq := 7, kept := [1] }).uart.seq = f.getD 1 0 ∧ (busRead (s 1) .uart 0).2.1 = 0 ∧ (busRead (s 1) .uart 0x2800).2.1 ≠ 0 ∧
    (busWrite (s 1) .uart 0x8000 1).2 = 0 ∧ (busWrite (s 1) .uart 0 1).2 ≠ 0 := by decide +kernel

-- witnesses: timers, the RTC, OTP, proofs and scan

theorem test_witness_timers :
    let s (c : Word) (k : BitVec 4) (x : Timer) : State := (tUnit 0x40 { code := k } (tRegs [(0x5801, c)] tRun)).setTimer 0 x
    let z : State := (tRegs [(0x5804, 0)] (s 3 2 { run := true }))
    let halted : State := (s 0x101 2 { run := true }).setEng 0 { halted := true }
    (((s 1 2 { run := true }).timer 0).run = true ∧ ((s 1 2 {}).unit 0x40).code = 2 ∧ ((s 1 2 {}).unit 0x40).fenced = false) ∧
    (bit (halted.reg 0x5801) 8 = true ∧ (halted.eng ((halted.reg 0x5801).toNat / 512 % 4)).halted = true) ∧
    ((s 1 2 { run := true, loaded := true }).timer 0).loaded = true ∧ (tRegs [(0x5804, 1)] (s 1 2 {})).reg 0x5804 ≠ 0 ∧
    (z.reg 0x5804 = 0 ∧ bit (z.reg 0x5801) 1 = true) ∧ bit ((s 1 2 {}).reg 0x5801) 1 = false ∧ admitted (s 1 2 {}) .spt = true ∧
    ((s 1 0 {}).unit 0x40).code = 0 ∧ ((tUnit 0x40 { fenced := true }).unit 0x40).fenced = true ∧
    ((s 1 2 { landing := [(.buf, 3), (.cnt, 5)] }).timer 0).landing = [(.buf, 3)] ++ (.cnt, 5) :: [] ∧
    (∀ p ∈ [(TimerWord.buf, (3 : Word))], p.1 ≠ TimerWord.cnt) ∧ bit ((tRegs [(0x5890, 1)] tRun).reg 0x5890) 0 = true ∧
    bit ((tRegs [(0x5890, 0)] tRun).reg 0x5890) 0 = false := by decide

theorem test_witness_rtc :
    let s (l : List (Nat × Word)) (c : Rtc := {}) : State := { tRegs l tRun with rtc := c }
    let leap : Rtc := { sec := 59, min := 59, hour := 23, day := 29, mon := 2, year := 24 }
    tRun.present 9 3 = false ∧ (tRun.setFlt 0x903 { present := true }).present 9 3 = true ∧
    (leap.sec < 60 ∧ leap.day ≤ monthDays leap.year leap.mon ∧ leap.year < 99) ∧ admitted tRun .spt = true ∧
    (let d := s [(0x5909, 0x1D00), (0x590A, 0x1802)]; (d.reg 0x5909).toNat / 256 % 32 ≤
      monthDays ((d.reg 0x590A).toNat / 256 % 128) ((d.reg 0x590A).toNat % 16)) ∧
    ¬((s [(0x5909, 0x1E00), (0x590A, 0x1802)]).reg 0x5909).toNat / 256 % 32 ≤ monthDays 24 2 ∧
    bit ((s [(0x5920, 8)]).reg 0x5920) 3 = true ∧ (s [(0x5921, 1)]).reg 0x5921 = 1 ∧ 1 < (s [(0x5921, 2)]).reg 0x5921 ∧
    (s [(0x5921, 0)]).reg 0x5921 = 0 ∧ bit ((s [(0x5920, 12)]).reg 0x5920) 2 = true ∧ tRun.rtc.onbat = false ∧
    (s [] { onbat := true }).rtc.onbat = true := by decide

theorem test_witness_seeds :
    let s (v : Bool) (c : Clock) : State := { tRun with rtc := { valid := v }, clock := c }
    commandable (s true {}) .spt = true ∧ (s true {}).rtc.valid = true ∧ (s true {}).rtc.lock = false ∧ ringTimeOk (s true {}) = false ∧
    (s false {}).rtc.valid = false ∧ logStarted tRun = true ∧ (s true { porSeed := true }).clock.porSeed = true ∧
    (s true { seed := [.spt] }).clock.seed ≠ [] ∧ logStarted State.reset = false := by decide

theorem test_witness_otp :
    let s (l : List Word) : State := { tArgs l with supply := { vsysOk := true } }
    let k : Kiln := { r := some .spt, word := 0x40, bits := 0x8001 }
    let b : State := { s [] with otp := { kiln := some k } }
    let fits (l : List Word) : Prop := bankArg (s l) .spt 0 ≤ 0xFF ∧ bankArg (s l) .spt 1 ≠ 0 ∧ bankArg (s l) .spt 2 = 0x6B1E
    commandable (s [0x40, 1, 0x6B1E]) .spt = true ∧ fits [0x40, 1, 0x6B1E] ∧ fits [0xFF, 0x7F, 0x6B1E] ∧
    (0x7F : Word) &&& 0xFF80 = 0 ∧ bit ((s []).reg 0x6001) 1 = false ∧
    bit ((tRegs [(0x6001, 2)] (s [])).reg 0x6001) 1 = true ∧ (s []).otp.kiln = none ∧
    ((s []).supply.vsysOk = true ∧ (s []).present 2 1 = false ∧ 0 ≤ (s []).supply.dieC ∧ (s []).supply.dieC ≤ 85) ∧ tRun.supply.vsysOk = false ∧
    commandable (setBank (s []) (.engine 0) 0 0) (.engine 0) = true ∧ b.otp.kiln = some k ∧ k.r = some .spt ∧ k.ended = false ∧
    ({ k with ended := true } : Kiln).ended = true ∧ k.ended ≠ Option.isSome (some (3 : Fin 33)) := by decide

theorem test_witness_proofs :
    let s (l : List Word) : State := tArgs l
    let p (w : Word) : State := tRegs [(0x6800, w)] tRun
    let sig : State := { p 5 with otp := { shown := [(0x70, 0x00B0)] } }
    let ready : State := { tRun with boot := { phase := .ready } }
    (commandable (s [1, 0x7E57]) .spt = true ∧ bankArg (s [1, 0x7E57]) .spt 0 = 1 ∧ bankArg (s [1, 0x7E57]) .spt 1 = 0x7E57) ∧
    (∀ n, n < 4 → (tRun.unit (0x38 + n)).code = 0) ∧ ¬(poolFree tRun < 1024) ∧ bit (tRun.reg 0x3000) 0 = false ∧
    bit (tRun.reg 0x5000) 3 = false ∧ bankArg (s [3]) .spt 0 ≠ 1 ∧ mayAccess (p 5) .spt = true ∧ ((p 5).reg 0x6800).toNat % 4 ≠ 0 ∧
    ((p 2).reg 0x6800).toNat % 4 = 2 ∧ reqFenced (p 5) .spt = false ∧ bankPending (p 5) .spt = false ∧
    ([0, 1, 2, 3].find? fun e => mget dZero sig.otp.shown (0x70 + 6 * e) == 0x00B0) = some 0 ∧
    ([0, 1, 2, 3].find? fun e => mget dZero (p 5).otp.shown (0x70 + 6 * e) == 0x00B0) = none ∧
    (ready.boot.phase = .ready ∧ allRailsOff ready = true ∧ bit (ready.reg 0x6001) 5 = false) ∧
    (servesAccesses tRun = true ∧ tRun.jtag.dr.getLsbD 33 = true) ∧ writeCode tRun (.engine 0) 0x2404 1 = 0 ∧
    writeCode tRun (.engine 0) 0x2401 0xFFFF ≠ 0 ∧ readCode tRun (.engine 0) 0x2400 = 0 ∧
    bit ((tRegs [(0x6001, 0x10)] tRun).reg 0x6001) 4 = true ∧ ({ tRun with jtag := { dr := 0 } } : State).jtag.dr.getLsbD 33 = false := by
  decide

-- witnesses: the block as a whole

/-- An idle cycle: a converter that runs with a change due at a period boundary, one whose period goes on, and one that does not run. -/
theorem test_witness_idle :
    let m (acc : Nat) (r : Word) : State := tRegs [(0x3000, 0x0101), (0x3001, 1)] { tUnit 0x4E { code := 2 } with
      mea := { taps := [(0, some tTap)], convs := [(0, { srcs := [0], rate := r, acc := acc })] } }
    (tRun.pending = [] ∧ tRun.boot.phase ≠ .supply ∧ State.reset.boot.phase = .supply ∧
      0 ≤ tRun.clock.slew ∧ ({ tRun with clock := { slew := -5 } } : State).clock.slew ≤ 0) ∧
    ((m 2499999 2).unit (uMc 0)).code = 2 ∧ ((m 2499999 2).unit (uMc 0)).fenced = false ∧ (m 2499999 2).tap 0 = some tTap ∧
    periodAcc ≤ ((m 2499999 2).conv 0).acc + ((m 2499999 2).conv 0).rate.toNat ∧ convMoved (m 2499999 2) 0 = true ∧
    ((m 2499998 1).conv 0).acc + ((m 2499998 1).conv 0).rate.toNat < periodAcc ∧ convMoved (m 0 1) 0 = false ∧
    (tRun.unit (uMc 0)).code ≠ 2 ∧ ((tUnit 0x4E { code := 2, fenced := true }).unit (uMc 0)).fenced = true := by decide

theorem test_witness_step_kept : ∃ t, Canonical tRun ∧ step { tRun with pending := [.bypass none] } = .next t := by
  refine ⟨_, ?_, rfl⟩
  constructor <;> decide

/-- The frames and words of `Obligations.EncodingsRoundTrip` exist: an engine's word, a stream container, a message, characters. -/
theorem test_witness_encodings :
    engineOf (.ldl 1 7 0x2A01) = some 1 ∧ encodeEng (.ldl 1 7 0x2A01) = some [0x5700, 0x2A01] ∧
    decodeWords 1 0x5700 0x2A01 = some (.ldl 1 7 0x2A01) ∧ (List.replicate 16 (0 : Word)).length = 16 ∧ slotKind 11 = true ∧
    slotKind 4 = false ∧ (List.replicate 7 (0 : Word)).length = 7 := by decide

-- witnesses: clauses at the edges of their ranges

/-- The supplies of the ring at the edges of their ranges; a RING_TSET as master, while one waits, and with the ring down; a
candidate that begins a cycle; a fenced lane. -/
theorem test_witness_ring_edges :
    let m : State := tLanes { master := some 0, age := [(0, 0)] }
    let f : State := tUnit 0x48 { code := 2, fenced := true } m
    ((830 ≤ 830 ∧ 830 ≤ 970 ∧ 1110 ≤ 1290 ∧ 970 ≤ 970 ∧ 1290 ≤ 1290) ∧ 829 < 830 ∧ 970 < 971 ∧ 1109 < 1110 ∧ 1290 < 1291) ∧
    (commandable m .spt = true ∧ ringUpNow m = true ∧ ringMaster m = true ∧ m.ring.tset = none) ∧
    (ringUpNow (tLanes { master := some 1, tset := some (0, none) }) = true ∧ (tLanes { master := some 1, tset := some (0, none) }).ring.tset ≠ none) ∧
    (ringUpNow (tLanes { master := some 1 }) = true ∧ ringMaster (tLanes { master := some 1 }) = false) ∧
    (commandable tRun .spt = true ∧ ringUpNow tRun = false) ∧
    ((tLanes {}).ring.master = none ∧ (selfCandidate (tRegs [(0x4000, 0x0003)] (tLanes {}))).isSome = true ∧
      mget dHeld (tLanes {}).ring.held 0 = []) ∧
    ((f.unit 0x48).fenced = true ∧ admitted f .spt = true ∧ (f.unit 0x49).fenced = false) := by decide

/-- The floor port: a fenced one, one that seeks and may become master, and one that may not. -/
theorem test_witness_floor_edges :
    let s (x : UnitSt) : State := tUnit 0x4C x (tRegs [(0x4800, 0x0003)] tRun)
    (admitted (s { code := 1 }) .spt = true ∧ ((s { code := 1 }).unit 0x4C).fenced = false) ∧
    ((s { code := 1, fenced := true }).unit 0x4C).fenced = true ∧
    (((s { code := 1 }).unit 0x4C).code = 1 ∧ (s { code := 1 }).floor.mute = false ∧ (s { code := 1 }).floor.dup = false ∧
      floorCandidate (s { code := 1 }) ≠ none) ∧ ((s { code := 2 }).unit 0x4C).code ≠ 1 := by decide

/-- The supply of the RTC island at its thresholds, and the scans of the test access port. -/
theorem test_witness_backup :
    (tRun.rtc.onbat = false ∧ 1690 ≤ 1690 ∧ 1690 < 1691) ∧
    (({ tRun with rtc := { onbat := true } } : State).rtc.onbat = true ∧ 1630 ≤ 1630 ∧ 1629 < 1630) ∧
    (List.replicate boundary.length true).length = boundary.length ∧ ([] : List Bool).length ≠ boundary.length ∧
    ((0x5 : BitVec 4) ≠ 0 ∧ (0x5 : BitVec 4) ≠ 1 ∧ (0x5 : BitVec 4) ≠ 2 ∧ (0x5 : BitVec 4) ≠ 8) ∧
    bit (tRun.reg 0x6001) 5 = false := by decide

/-- Charger and power path: the reading at the regulation voltage, a latched path fault, both details of one, a scan with two
samples of equal power. -/
theorem test_witness_charger_edges :
    let s : State := tRegs [(0x1A01, 0x0100)] (tChg 4 { scan := true, pathOn := true })
    (vinregLive (tChg 4)).toNat ≤ 65535 ∧ (s.chg.scan = true ∧ s.chg.pathOn = true ∧ s.present 3 6 = false) ∧
    (s.setFlt 0x306 { present := true }).present 3 6 = true ∧ ((1 : Byte) ≠ 2 ∧ (0 : Byte) ≠ 1 ∧ (3 : Byte) ≠ 2) ∧
    ([((2 : Word), (3 : Word), (5000 : Word)), (3, 2, 6000)])[0]? = some (2, 3, 5000) ∧
    ((2 : Word).toNat * (3 : Word).toInt : Int) = (3 : Word).toNat * (2 : Word).toInt ∧ (tChg 3).present 3 0 = false ∧
    ((tChg 3).setFlt 0x300 { present := true }).present 3 0 = true := by decide

/-- Taps: a current tap with a block, one that is fenced, a collector queue that is empty. -/
theorem test_witness_tap_edges :
    let o : State := { tUnit 0x80 { code := 1, fenced := true } with mea := { taps := [(0, some { tTap with queue := [tBlock] })] } }
    (currentTap o 0).isSome = true ∧ (o.unit 0x80).fenced = true ∧
    (selQueue { o with mea := { o.mea with colq := [{ dev := 5, handle := 0, blocks := [], gap := false, lost := 0 }] } } .spt) = none ∧
    admitted o .spt = true ∧ (o.req .spt).selDev = devId o := by decide

-- witnesses: more clauses

/-- Engines: a division by zero in a handler, an armed STEP, a halt that meets it, and fills that fail: in recipe SRAM, behind a
cached line at 0xFFFF, of a fenced SPI host, of one with NOMEM, and one that waits for a direct transfer. -/
theorem test_witness_engine_faults :
    let d : State := tRegs [(0x2001, 2)] (tEng { exc := true })
    let r (x : Eng) : State := tEng x
    let top : State := { r { pc := 0xFFFF } with cache := [{ base := 0xFFF0, words := [] }] }
    let fe : State := tUnit 0x56 { fenced := true } (r { pc := 0x2000 })
    (engineRuns d 0 = true ∧ (d.eng 0).greg 1 = 0 ∧ bit (d.reg 0x2001) 1 = true ∧ (d.eng 0).exc = true) ∧
    ((r { xcpt := some (.trap, true) }).eng 0).xcpt = some (.trap, true) ∧
    ((r {}).eng 0).halted = false ∧ bit ((tRegs [(0x2400, 1)] (r {})).reg 0x2400) 0 = true ∧ bit ((r {}).reg 0x2400) 0 = false ∧
    (((r { haltReq := true, stepArm := true }).eng 0).stepArm = true ∧ ((r { haltReq := true, stepArm := true }).unit 0x38).code = 1) ∧
    (∀ s ∈ [r { pc := 0x10 }, top, fe, r { pc := 0x2000, exc := true }, tRegs [(0x5000, 1)] (r { pc := 0x2000 }),
      tRegs [(0x5000, 8)] (r { pc := 0x2000 })], engineGoes s 0 = true ∧ entryDue s 0 = false) ∧
    ((top.eng 0).pc = 0xFFFF ∧ ∃ l ∈ top.cache, l.base = 0xFFF0) ∧ (fe.unit 0x56).fenced = true ∧
    bit ((tRegs [(0x5000, 1)] tRun).reg 0x5000) 0 = true ∧ bit ((tRegs [(0x5000, 8)] tRun).reg 0x5000) 3 = true ∧
    ¬((tUnit 0x56 {}).unit 0x56).fenced = true := by decide

/-- A remote CMD over the floor bus, and unit operations that fail. -/
theorem test_witness_unit_codes :
    let g (l : List Word) : State := tArgs l
    ({ tRun with floor := { job := some tMsg } } : State).floor.job = some tMsg ∧ tRun.floor.job = none ∧ tRun.ring.job = none ∧
    commandable (g [0, 0, 3]) .spt = true ∧ bankArg (g [0, 0, 3]) .spt 2 &&& 3 = 3 ∧ bankArg (g [0, 0, 0x11]) .spt 2 / 4 = 4 ∧
    bankArg (g [0, 0, 4]) .spt 2 = 4 ∧ bankArg (g [0x4D, 0, 1]) .spt 0 = 0x4D ∧ bankArg (g [0, 0, 0x40]) .spt 2 &&& 0xFFC0 ≠ 0 ∧
    canFence 0 = false ∧ (tUnit 0 { owner := .sequencer }).unit 0 = { owner := .sequencer } ∧
    bankArg (g [0, 1]) .spt 1 ≠ (tRun.unit 0).gen.setWidth 16 := by decide

/-- A rail behind its hush, a hush of a whole number of periods and one that is not, a tracking rail that starts without tracking. -/
theorem test_witness_hush_boundary :
    let s (x : Rail) (l : List (Nat × Word)) : State := (tRegs l (tUnit 0 { code := 4 })).setRail 0 x
    ((s { after := some 6 } []).rail 0).hushed = false ∧ ((s { after := some 6 } []).rail 0).after = some 6 ∧
    ((s { hushed := true } []).rail 0).hushed = true ∧
    (effReg (s { per := 400 } [(0x100E, 800)]) 0 0xE).toNat % ((s { per := 400 } []).rail 0).per.toNat = 0 ∧
    (effReg (s { per := 400 } [(0x100E, 900)]) 0 0xE).toNat % ((s { per := 400 } []).rail 0).per.toNat ≠ 0 ∧
    ((tUnit 0 { code := 2 } (s {} [(0x100C, 1)])).unit 0).code = 2 ∧ field ((s {} [(0x100C, 1)]).reg 0x100C) 1 0 ≠ 0 ∧
    ((s {} []).rail 0).tracking = false := by decide

/-- What a load port drives, and samples that differ from it in two cycles in a row, or in one. -/
theorem test_witness_contention :
    let s : State := (tRegs [(0x1801, 0x0A01)] tRun).setPort 0 { drives := true }
    let x (l : List Bool) : LcpAnswered := { port := 0, wait := 5, samples := l }
    bit (s.reg 0x1801) 0 = true ∧ (s.port 0).drives = true ∧ (lcpDrive s 0 5).length = 40 ∧ (lcpDrive tRun 0 5).length = 0 ∧
    lcpClash (lcpDrive s 0 5) (x [false, false, true, true]).samples = true ∧
    lcpClash (lcpDrive s 0 5) (x [true, true, true, false, true]).samples = false := by decide

/-- An LDO that each request finds OFF or on, and a ganged rail. -/
theorem test_witness_ldo_requests :
    let l (k : BitVec 4) : State := tUnit 0x10 { code := k, owner := .engine }
    ((l 0).unit 0x10).code = 0 ∧ ((l 4).unit 0x10).code = 4 ∧ switchOnBlocked (l 0) = false ∧ ((l 4).ldo 0).pg = false ∧
    (((l 4).setLdo 0 { pg := true }).ldo 0).pg = true ∧ (5000 : Word).toNat = 5000 ∧ (50001 : Word).toNat > 50000 ∧
    ((tUnit 0 { code := 7, busy := true }).unit 0).busy = true ∧ (some (1 : Byte)) ≠ some (tRun.unit 0).gen := by decide

/-- What the loader may not write, with words that every earlier check lets pass, and a window that ends with AUTO 1. -/
theorem test_witness_loader_locked :
    let ok (b : Nat) (w : Word) : Prop := bankPending tLoad .loader = false ∧ (regInfo b).acc ≠ .unmapped ∧
      (regInfo b).acc ≠ .reserved ∧ w &&& ~~~(regInfo b).mask = 0 ∧ writeRange tLoad .loader b w = true
    let b : State := tRegs [(0x002D, 1)] { tLoad with boot := { phase := .load, polled := true, bytes := 65536 } }
    ok 0x0002 0xA5C3 ∧ ok 0x0020 0 ∧ ok 0x7000 0x0201 ∧ b.boot.bytes = 65536 ∧ bit (b.reg 0x002D) 0 = true ∧
    ¬(bit (b.reg 0x1601) 1 = true ∧ stopLow b = true) := by decide

/-- CHG_RESTART from WAITING, DONE, FAULT and with no pack, with the input present and absent. -/
theorem test_witness_restart :
    let c (k : BitVec 4) (g : Chg) : State := tArgs [0] (tChg k g)
    (∀ k ∈ [1, 6, 7, 0xF], ((c k {}).unit 0x4D).code = k ∧ commandable (c k {}) .spt = true) ∧
    ((c 1 { ingate := true, batp := true }).chg.ingate = true ∧ (c 1 { ingate := true, batp := true }).chg.batp = true) ∧
    suspCause (c 1 { ingate := true, batp := true }) true = 0 ∧
    suspCause ((c 1 { ingate := true, batp := true }).setFlt 0x301 { present := true }) true ≠ 0 := by decide

/-- Opens, closes and pops that fail: each for its own reason. -/
theorem test_witness_tap_codes :
    let a (l : List Word) : State := tArgs l (tUnit 0x4E { code := 1 })
    let o (l : List Word) : State := { a l with mea := { taps := [(0, some { tTap with queue := [tBlock] })] } }.setReq .spt { (a l).req .spt with selH := 0 }
    let f : State := tUnit 0x80 { code := 1, fenced := true } (o [0, 0])
    let q (x : Tap) : State := { a [] with mea := { taps := [(0, some x)], colq :=
      [{ dev := 0, handle := 0, blocks := [tBlock], gap := false, lost := 0 }] } }.setReq .spt { selH := 0 }
    tapArgCode (a [0, 0, 0]) (bankArg (a [0, 0, 0]) .spt) ≠ 0 ∧ tapArgCode (a [0, 0, 1, 0, 1]) (bankArg (a [0, 0, 1, 0, 1]) .spt) = 0 ∧
    (bankArg (a [0, 0, 1, 0, 1]) .spt 1).toNat / 256 % 16 = 0 ∧ bit ((a []).reg 0x3000) 0 = false ∧
    ((tUnit 0x4E { fenced := true } (a [])).unit 0x4E).fenced = true ∧
    ((f.unit 0x80).fenced = true ∧ popFenced f .spt = true) ∧ reqOwns .spt ((tUnit 0x80 { owner := .engine }).unit 0x80) = false ∧
    (((o [0, 1]).unit 0x81).fenced = false ∧ reqOwns .spt ((o [0, 1]).unit 0x81) = true ∧ currentTap (o [0, 1]) 1 = none) ∧
    bankArg (a [0x100]) .spt 0 &&& 0xFF00 ≠ 0 ∧ ringReach (a [9]) 9 = false ∧
    (popFenced (o []) .spt = false ∧ ((o []).req .spt).selDev = devId (o []) ∧ (currentTap (o []) 0).isSome = true ∧
      (1 : Word) ≠ ((o []).req .spt).selH ∧ selQueue (o []) .spt = some [tBlock]) ∧
    (popFenced (q { tTap with dest := 1 }) .spt = false ∧
      (currentTap (q { tTap with dest := 1 }) 0).any (fun x => x.2.dest != 0) = true ∧
      ((q tTap).mea.colq.find? fun k => decide (k.dev = 0) && decide (k.handle = 0)).isSome = true) ∧
    popFenced (tRun.setReq .spt { selDev := 1 }) .spt = false := by decide

/-- Blocks that close: full, at a change of NH or GAP, of a local tap and of one whose collector is this device or another. -/
theorem test_witness_block_closing :
    let t (x : Tap) : State := { tRun with mea := { taps := [(0, some x)] } }
    let b : Block := { tBlock with data := List.replicate 53 0 }
    let y : Tap := { tTap with cur := some b, gapNext := true }
    let x : Sample := { src := 0, raw := 0, dieT := 0, err := 0 }
    ((t y).tap 0 = some y ∧ y.src = x.src ∧ y.skip ≤ 1 ∧ ((t y).unit 0x80).fenced = false ∧ proofRun (t y) = 0) ∧ y.cur = some b ∧
    b.data ≠ [] ∧ b.data.length < 54 ∧ 54 ≤ b.data.length + (sampleWords (t y) y x).length ∧ y.gapNext = true ∧ b.nh ≠ true ∧
    ((t tTap).conv 0).hush ≠ .unhushed ∧ ({ y with dest := 1, arg4 := 0 } : Tap).arg4.setWidth 8 = devId (t y) ∧
    ({ y with dest := 1, arg4 := 1 } : Tap).arg4.setWidth 8 ≠ devId (t y) ∧ (allocBlock (t y) y.acct).isSome = true ∧
    (allocBlock { t y with mea := { (t y).mea with heldS := [(0, 4096)] } } 0).isSome = false := by decide

/-- Lanes: a transmit lane's command, a receive lane down or up, LOSREP runs, one supply of two, and the counter of a transmit
lane that passes 96 and 256 or goes back. -/
theorem test_witness_lane_counts :
    let l (n c : Nat) (k : BitVec 4) : State := tUnit (0x48 + n) { code := k } ((tLanes {}).setLane n { cnt := c })
    laneCarries (l 1 95 2) 1 = true ∧ laneCarries tRun 1 = false ∧ ((l 1 95 2).lane 1).cnt < 96 ∧ 96 ≤ min 511 (95 + 8 * 1) ∧
    (((l 3 255 2).unit 0x4B).code = 2 ∧ ((l 3 255 2).lane 3).cnt < 256 ∧ 256 ≤ min 511 (255 + 8 * 1)) ∧
    (((l 3 96 3).unit 0x4B).code = 3 ∧ ((l 3 96 3).lane 3).cnt - 1 < 96) ∧ ((tLanes {}).unit 0x48).code ≠ 4 ∧
    (tLanes { west := { losRun := 3 } }).ring.west.losRun < 4 ∧
    (tRun.supply.serOk = false ∧ tRun.supply.seraOk = false) ∧
    ({ tRun with supply := { serOk := true } } : State).supply.serOk = true := by decide

/-- Remote requests of every count, the last included, and one of none. -/
theorem test_witness_remote_counts :
    let r (k n : Byte) : Msg := { tMsg with kind := k, count := n }
    (∀ n ∈ [1, 4], 1 ≤ (r 1 n).count.toNat ∧ (r 1 n).count.toNat ≤ 4) ∧ (∀ n ∈ [1, 5], 1 ≤ (r 2 n).count.toNat ∧
      (r 2 n).count.toNat ≤ 5) ∧ (r 1 0).count.toNat = 0 ∧ 4 < (r 1 5).count.toNat ∧ 5 < (r 2 6).count.toNat ∧
    servesAccesses (tLanes {}) = true := by decide

/-- The SPI target after COUNT words, after an error and with work of an earlier transaction; a controller that waits for its bus. -/
theorem test_witness_ports_waiting :
    let s (x : Spt) : State := { tRun with spt := x }
    let i (x : I2c) : State := { tRun with i2cb := x }
    ((s { active := true, op := 3, idx := 1, count := 2 }).spt.op = 3 ∧ (s { active := true, op := 3, idx := 1, count := 2 }).spt.idx ≤ 2) ∧
    (∀ k ∈ [1, 2], (s { active := true, op := k, idx := 1, count := 1 }).spt.idx = (s { op := k, count := 1 }).spt.count) ∧
    (s { late := [(1, none)] }).spt.late = [(1, none)] ∧ (s { late := [(1, some 2)] }).spt.late = [(1, some 2)] ∧
    ((i { mbusy := true, waits := true }).i2cb.mbusy = true ∧ (i { mbusy := true, waits := true }).i2cb.waits = true) ∧
    (i { mbusy := true }).i2cb.waits = false := by decide

/-- A seed asked for while the RTC is locked, OTP operations while a kiln or a proof runs, and the boundary register's cells. -/
theorem test_witness_held_operations :
    let k : State := { tRun with rtc := { lock := true } }
    let o : State := { tRun with otp := { kiln := some { r := some .spt, word := 0, bits := 1 } } }
    let p : State := tRegs [(0x6800, 1)] tRun
    (mayAccess k .spt = true ∧ k.rtc.lock = true ∧ proofRun k = 0 ∧ reqFenced k .spt = false ∧ bankPending k .spt = false ∧
      (k.req .spt).last ≠ some (mget dZero (k.req .spt).bank 1)) ∧
    (commandable o .spt = true ∧ o.otp.kiln ≠ none) ∧ (mayAccess p .spt = true ∧ proofRun p ≠ 0 ∧ p.boot.phase ≠ .load ∧
      bankPending p .spt = false ∧ (p.req .spt).last ≠ some (mget dZero (p.req .spt).bank 1)) ∧
    ((Ball.stopN, CellKind.data) ∈ boundary ∧ extestActs tRun = false ∧ (ballSees tRun .stopN).isSome = true ∧
      Ball.stopN.openDrain = true) := by decide

/-- A power-on release that finds the junction hot, warm and cold. -/
theorem test_witness_found_hot :
    let s (c : Int) : State := { State.reset with supply := { dieC := c } }
    (s 130).boot.phase = .supply ∧ 130 ≤ (s 130).supply.dieC ∧ (s 130).present 2 1 = false ∧ (s 119).supply.dieC < 120 ∧
    ((s 25).setFlt 0x201 { present := true }).present 2 1 = true ∧ (1710 ≤ 1710 ∧ 600 ≤ 600 ∧ 900 ≤ 900) ∧
    (tRun.rtc.onbat = false ∧ ({ tRun with rtc := { onbat := true } } : State).rtc.onbat = true) := by decide
end

section
/-! PROOF. What the engine instructions compute (Machine/Flags.lean) in the words of the statements: exact integers, held and
outside the signed range, and for a shift the exact value of the amount's power of two. -/

namespace Sys2Proof.Machine

open Sys2Proof Sys2Proof.Safety

-- sums and differences (R307, R313, R314)

theorem ovf_eq_outside (x : Int) : ovf x = outside x := by
  simp [ovf, outside, Bool.or_comm]

theorem saturate_eq_held (x : Int) : saturate x = held x := by
  unfold saturate held
  split
  · rw [show max (-32768) (min 32767 x) = 32767 by omega]; rfl
  · split
    · rw [show max (-32768) (min 32767 x) = -32768 by omega]; rfl
    · rw [show max (-32768) (min 32767 x) = x by omega]

section
variable (a b : Word) (f : EFlags)

theorem aluAdd_eq : aluAdd a b f = (a + b, withFlags f (a + b).msb (a + b == 0) (decide (65536 ≤ a.toNat + b.toNat))
    (outside (a.toInt + b.toInt)) false false) := by
  rw [← ovf_eq_outside]; rfl

theorem aluSub_eq : aluSub a b f = (a - b, withFlags f (a - b).msb (a - b == 0) (decide (a.toNat < b.toNat))
    (outside (a.toInt - b.toInt)) false false) := by
  rw [← ovf_eq_outside]; rfl

theorem aluAdds_eq : aluAdds a b f = (held (a.toInt + b.toInt), withFlags f (held (a.toInt + b.toInt)).msb
    (held (a.toInt + b.toInt) == 0) (decide (65536 ≤ a.toNat + b.toNat)) (outside (a.toInt + b.toInt))
    (outside (a.toInt + b.toInt)) false) := by
  rw [← ovf_eq_outside, ← saturate_eq_held]; rfl

theorem aluSubs_eq : aluSubs a b f = (held (a.toInt - b.toInt), withFlags f (held (a.toInt - b.toInt)).msb
    (held (a.toInt - b.toInt) == 0) (decide (a.toNat < b.toNat)) (outside (a.toInt - b.toInt))
    (outside (a.toInt - b.toInt)) false) := by
  rw [← ovf_eq_outside, ← saturate_eq_held]; rfl

theorem zero_sub_borrows : decide ((0 : Word).toNat < b.toNat) = decide (b ≠ 0) := by
  simp [Nat.pos_iff_ne_zero, ← BitVec.toNat_inj]

theorem eq_minWord_iff : b = 0x8000 ↔ b.toInt = -32768 := by
  rw [← BitVec.toInt_inj]; rfl

/-- The only word whose negative overflows is 0x8000 (R313). -/
theorem outside_zero_sub : outside ((0 : Word).toInt - b.toInt) = decide (b = 0x8000) := by
  have hlo := BitVec.le_toInt b
  have hhi := BitVec.toInt_lt (x := b)
  have hzero : (0 : Word).toInt = 0 := rfl
  simp only [outside, hzero, eq_minWord_iff, decide_eq_decide]
  omega

theorem held_zero_sub : held ((0 : Word).toInt - b.toInt) = if b = 0x8000 then 0x7FFF else 0 - b := by
  split
  · next hb => subst hb; rfl
  · next hb =>
    have hin : outside ((0 : Word).toInt - b.toInt) = false := by rw [outside_zero_sub]; exact decide_eq_false hb
    simp only [outside, decide_eq_false_iff_not] at hin
    rw [held, show max (-32768) (min 32767 ((0 : Word).toInt - b.toInt)) = (0 : Word).toInt - b.toInt by omega,
      ← BitVec.toInt_inj, BitVec.toInt_ofInt, BitVec.toInt_sub]

theorem aluNeg_eq : aluSub 0 b f = (0 - b, withFlags f (0 - b).msb (0 - b == 0) (decide (b ≠ 0))
    (decide (b = 0x8000)) false false) := by
  rw [aluSub_eq, zero_sub_borrows, outside_zero_sub]

theorem aluNegs_eq : aluSubs 0 b f = (if b = 0x8000 then 0x7FFF else 0 - b,
    withFlags f (if b = 0x8000 then 0x7FFF else 0 - b : Word).msb ((if b = 0x8000 then 0x7FFF else 0 - b : Word) == 0)
      (decide (b ≠ 0)) (decide (b = 0x8000)) (decide (b = 0x8000)) false) := by
  rw [aluSubs_eq, zero_sub_borrows, outside_zero_sub, held_zero_sub]

-- bitwise results and moves (R310)

theorem aluLogic_eq (w : Word) : aluLogic w f = (w, withFlags f w.msb (w == 0) (fC f) (fV f) false false) := rfl

-- shifts and rotation (R317, R318)

theorem shiftLeft_eq_wd (n : Nat) : a <<< n = wd (a.toNat * 2 ^ n) := by
  apply BitVec.eq_of_toNat_eq
  rw [BitVec.toNat_shiftLeft, Nat.shiftLeft_eq, wd, BitVec.toNat_ofNat]

theorem ushiftRight_eq_wd (n : Nat) : a >>> n = wd (a.toNat / 2 ^ n) := by
  rw [wd, ← Nat.shiftRight_eq_div_pow, ← BitVec.toNat_ushiftRight, BitVec.ofNat_toNat, BitVec.setWidth_eq]

theorem sshiftRight_eq_ofInt (n : Nat) : a.sshiftRight n = BitVec.ofInt 16 (a.toInt / 2 ^ n) := by
  rw [← BitVec.ofInt_toInt (x := a.sshiftRight n), BitVec.toInt_sshiftRight, Int.shiftRight_eq_div_pow]
  norm_cast

theorem sshiftRight_of_ge (n : Nat) (h : 16 ≤ n) : a.sshiftRight n = if a.msb then 0xFFFF else 0 := by
  cases hm : a.msb
  · rw [BitVec.sshiftRight_eq_of_msb_false hm, BitVec.ushiftRight_eq_zero h]; rfl
  · rw [BitVec.sshiftRight_eq_of_msb_true hm, BitVec.ushiftRight_eq_zero h]; rfl

/-- Bit 16 of the exact value of a left shift is the last bit shifted out, and 0 for amounts above 16. -/
theorem testBit_sixteen_mul_pow (n : Nat) :
    (a.toNat * 2 ^ n).testBit 16 = if n ≤ 16 then a.getLsbD (16 - n) else false := by
  rw [Nat.testBit_mul_two_pow]
  by_cases h : n ≤ 16 <;> simp [h, BitVec.getLsbD]

theorem testBit_below (n : Nat) :
    a.toNat.testBit (n - 1) = if n ≤ 16 then a.getLsbD (n - 1) else false := by
  rw [BitVec.testBit_toNat]
  split
  · rfl
  · exact BitVec.getLsbD_of_ge _ _ (by omega)

theorem getLsbD_zero_eq_odd : a.getLsbD 0 = decide (a.toInt % 2 = 1) := by
  have h := BitVec.toInt_eq_toNat_cond a
  rw [BitVec.getLsbD, Nat.testBit_zero, decide_eq_decide]
  split at h <;> omega

/-- The bit below the last of the exact value, and bit 15 for amounts above 16. -/
theorem odd_shifted (n : Nat) :
    decide (a.toInt / 2 ^ (n - 1) % 2 = 1) = if n ≤ 16 then a.getLsbD (n - 1) else a.msb := by
  have hx : a.toInt / 2 ^ (n - 1) = (a.sshiftRight (n - 1)).toInt := by
    rw [BitVec.toInt_sshiftRight, Int.shiftRight_eq_div_pow]; norm_cast
  rw [hx, ← getLsbD_zero_eq_odd, BitVec.getLsbD_sshiftRight]
  have : n - 1 < 16 ↔ n ≤ 16 := by omega
  simp [this]

theorem aluLsl_eq (r : Word) : aluLsl a r f = (wd (a.toNat * 2 ^ r.toNat),
    withFlags f (wd (a.toNat * 2 ^ r.toNat)).msb (wd (a.toNat * 2 ^ r.toNat) == 0)
      (if r.toNat = 0 then fC f else (a.toNat * 2 ^ r.toNat).testBit 16) false false false) := by
  have hr : (if r.toNat ≥ 16 then 0 else a <<< r.toNat) = wd (a.toNat * 2 ^ r.toNat) := by
    rw [← shiftLeft_eq_wd]
    split
    · next h => exact (BitVec.shiftLeft_eq_zero h).symm
    · rfl
  simp only [aluLsl, hr, testBit_sixteen_mul_pow]

theorem aluLsr_eq (r : Word) : aluLsr a r f = (wd (a.toNat / 2 ^ r.toNat),
    withFlags f (wd (a.toNat / 2 ^ r.toNat)).msb (wd (a.toNat / 2 ^ r.toNat) == 0)
      (if r.toNat = 0 then fC f else a.toNat.testBit (r.toNat - 1)) false false false) := by
  have hr : (if r.toNat ≥ 16 then 0 else a >>> r.toNat) = wd (a.toNat / 2 ^ r.toNat) := by
    rw [← ushiftRight_eq_wd]
    split
    · next h => exact (BitVec.ushiftRight_eq_zero h).symm
    · rfl
  simp only [aluLsr, hr, testBit_below]

theorem aluAsr_eq (r : Word) : aluAsr a r f = (BitVec.ofInt 16 (a.toInt / 2 ^ r.toNat),
    withFlags f (BitVec.ofInt 16 (a.toInt / 2 ^ r.toNat)).msb (BitVec.ofInt 16 (a.toInt / 2 ^ r.toNat) == 0)
      (if r.toNat = 0 then fC f else decide (a.toInt / 2 ^ (r.toNat - 1) % 2 = 1)) false false false) := by
  have hr : (if r.toNat ≥ 16 then (if a.msb then 0xFFFF else 0) else a.sshiftRight r.toNat) =
      BitVec.ofInt 16 (a.toInt / 2 ^ r.toNat) := by
    rw [← sshiftRight_eq_ofInt]
    split
    · next h => exact (sshiftRight_of_ge a _ h).symm
    · rfl
  simp only [aluAsr, hr, odd_shifted]

theorem aluRor_eq (r : Word) : aluRor a r f = (a.rotateRight (r.toNat % 16),
    withFlags f (a.rotateRight (r.toNat % 16)).msb (a.rotateRight (r.toNat % 16) == 0)
      (if r.toNat % 16 = 0 then fC f else (a.rotateRight (r.toNat % 16)).msb) false false false) := rfl

-- products and quotients (R315, R316, R319)

/-- An integer below 2^16 in size is 0 where its word is. -/
theorem ofInt_eq_zero (q : Int) (hlo : -65536 < q) (hhi : q < 65536) : (BitVec.ofInt 16 q == 0) = decide (q = 0) := by
  rw [beq_eq_decide, decide_eq_decide, ← BitVec.toNat_inj, BitVec.toNat_ofInt]
  simp
  omega

theorem aluPair_ofInt (p : Int) (hlo : -1073741824 ≤ p) (hhi : p ≤ 1073741824) :
    aluPair (BitVec.ofInt 32 p) f = (BitVec.ofInt 16 p, BitVec.ofInt 16 (p / 65536),
      withFlags f (decide (p < 0)) (decide (p = 0)) false false false false) := by
  have hp : (BitVec.ofInt 32 p).toInt = p := BitVec.toInt_ofInt_eq_self (by decide) (by omega) (by omega)
  have hn : (BitVec.ofInt 32 p).toNat = (p % 4294967296).toNat := BitVec.toNat_ofInt p
  have hlow : (BitVec.ofInt 32 p).setWidth 16 = BitVec.ofInt 16 p := by
    apply BitVec.eq_of_toNat_eq
    rw [BitVec.toNat_setWidth, hn, BitVec.toNat_ofInt]
    omega
  have hhigh : (BitVec.ofInt 32 p >>> 16).setWidth 16 = BitVec.ofInt 16 (p / 65536) := by
    apply BitVec.eq_of_toNat_eq
    rw [BitVec.toNat_setWidth, BitVec.toNat_ushiftRight, hn, BitVec.toNat_ofInt, Nat.shiftRight_eq_div_pow]
    omega
  have hzero : (BitVec.ofInt 32 p == 0) = decide (p = 0) := by
    rw [beq_eq_decide, decide_eq_decide, ← BitVec.toInt_inj, hp]; rfl
  rw [aluPair, hlow, hhigh, hzero, BitVec.msb_eq_toInt, hp]

theorem aluPair_ofNat (u : Nat) (h : u < 4294967296) :
    aluPair (BitVec.ofNat 32 u) f = (wd u, wd (u / 65536),
      withFlags f (decide (2147483648 ≤ u)) (decide (u = 0)) false false false false) := by
  have hn : (BitVec.ofNat 32 u).toNat = u := Nat.mod_eq_of_lt h
  have hlow : (BitVec.ofNat 32 u).setWidth 16 = wd u := BitVec.setWidth_ofNat_of_le (by decide) u
  have hhigh : (BitVec.ofNat 32 u >>> 16).setWidth 16 = wd (u / 65536) := by
    apply BitVec.eq_of_toNat_eq
    rw [BitVec.toNat_setWidth, BitVec.toNat_ushiftRight, hn, wd, BitVec.toNat_ofNat, Nat.shiftRight_eq_div_pow]
  have hzero : (BitVec.ofNat 32 u == 0) = decide (u = 0) := by
    rw [beq_eq_decide, decide_eq_decide, ← BitVec.toNat_inj, hn]; rfl
  rw [aluPair, hlow, hhigh, hzero, BitVec.msb_eq_decide, hn]

theorem aluMul_eq : aluMul a b f = (BitVec.ofInt 16 (a.toInt * b.toInt), BitVec.ofInt 16 (a.toInt * b.toInt / 65536),
    withFlags f (decide (a.toInt * b.toInt < 0)) (decide (a.toInt * b.toInt = 0)) false false false false) :=
  aluPair_ofInt f _ BitVec.le_toInt_mul_toInt BitVec.toInt_mul_toInt_le

theorem aluMulu_eq : aluMulu a b f = (wd (a.toNat * b.toNat), wd (a.toNat * b.toNat / 65536),
    withFlags f (decide (2147483648 ≤ a.toNat * b.toNat)) (decide (a.toNat * b.toNat = 0)) false false false false) :=
  aluPair_ofNat f _ (Nat.mul_lt_mul'' a.isLt b.isLt)

theorem aluDiv_zero : aluDiv a 0 f = (if 0x8000 ≤ a.toNat then 0x8000 else 0x7FFF, a,
    withFlags f (decide (0x8000 ≤ a.toNat)) false false false false true) := by
  have hm : a.msb = decide (0x8000 ≤ a.toNat) := BitVec.msb_eq_decide a
  rw [aluDiv, if_pos rfl]
  simp only [hm, decide_eq_true_eq]
  by_cases h : 0x8000 ≤ a.toNat
  · simp only [h, if_true, decide_true]; rfl
  · simp only [h, if_false, decide_false]; rfl

theorem aluDivu_zero : aluDivu a 0 f = (0xFFFF, a, withFlags f true false false false false true) := rfl

theorem aluDiv_eq (h : b ≠ 0) : aluDiv a b f =
    (BitVec.ofInt 16 (a.toInt.tdiv b.toInt), BitVec.ofInt 16 (a.toInt.tmod b.toInt),
      withFlags f (BitVec.ofInt 16 (a.toInt.tdiv b.toInt)).msb (decide (a.toInt.tdiv b.toInt = 0)) false
        (decide (a = 0x8000 ∧ b = 0xFFFF)) false false) := by
  have hlo := BitVec.le_toInt a
  have hhi := BitVec.toInt_lt (x := a)
  have hq := Int.natAbs_tdiv_le_natAbs a.toInt b.toInt
  rw [← ofInt_eq_zero _ (by omega) (by omega), aluDiv, if_neg h, Bool.decide_and]
  rfl

theorem aluDivu_eq (h : b ≠ 0) : aluDivu a b f =
    (wd (a.toNat / b.toNat), wd (a.toNat % b.toNat),
      withFlags f (decide (32768 ≤ a.toNat / b.toNat)) (decide (a.toNat < b.toNat)) false false false false) := by
  have hn : (a / b).msb = decide (32768 ≤ a.toNat / b.toNat) := by
    rw [BitVec.msb_eq_decide, BitVec.toNat_udiv]
  have hz : (a / b == 0) = decide (a.toNat < b.toNat) := by
    have hb : b.toNat ≠ 0 := fun h0 => h (BitVec.eq_of_toNat_eq h0)
    rw [beq_eq_decide, decide_eq_decide, ← BitVec.toNat_inj, BitVec.toNat_udiv]
    exact Nat.div_eq_zero_iff.trans (or_iff_right hb)
  have hq : a / b = wd (a.toNat / b.toNat) := by
    rw [← BitVec.toNat_udiv, wd, BitVec.ofNat_toNat, BitVec.setWidth_eq]
  have hr : a % b = wd (a.toNat % b.toNat) := by
    rw [← BitVec.toNat_umod, wd, BitVec.ofNat_toNat, BitVec.setWidth_eq]
  rw [aluDivu, if_neg h, ← hn, ← hz, ← hq, ← hr]

end

end Sys2Proof.Machine
end

section
/-! PROOF. What an instruction of each shape leaves (Machine/Engine.lean): one word with its flags, a pair, a division, and
an exception raised at its end. -/

namespace Sys2Proof.Machine

open Sys2Proof Sys2Proof.Safety

/-- The registers after an instruction that writes the pair g(d), g(d + 1) and clears C (R319). -/
def paired (x : Eng) (d : Nat) (lo hi : Word) (n z v div0 : Bool) : Eng :=
  { (x.setG d lo).setG (d + 1) hi with
    pc := x.pc + 1, flags := mkFlags n z false v (fS x.flags) (fD x.flags || div0) (fI x.flags) }

theorem withFlags_flagged (x : Eng) (w : Word) (c v sat : Bool) :
    withFlags x.flags w.msb (w == 0) c v sat false = (flagged x w c v sat).flags := by
  rw [withFlags, Bool.or_false]; rfl

theorem withFlags_paired (x : Eng) (d : Nat) (lo hi : Word) (n z v div0 : Bool) :
    withFlags x.flags n z false v false div0 = (paired x d lo hi n z v div0).flags := by
  rw [withFlags, Bool.or_false]; rfl

-- an exception at the end of an instruction (R330, R334, R335)

section
variable (s : State) (n : Nat) (x : Eng) (cls src : Nat) (det : Byte) (stop : Option Word) (inj : Bool)

@[simp] theorem occur_unit (u : Nat) : (s.occur cls src det stop inj).unit u = s.unit u := rfl
@[simp] theorem occur_eng (m : Nat) : (s.occur cls src det stop inj).eng m = s.eng m := rfl

theorem occur_setEng : (s.occur cls src det stop inj).setEng n x = (s.setEng n x).occur cls src det stop inj := rfl
theorem setReg_setEng (a : Nat) (w : Word) : (s.setReg a w).setEng n x = (s.setEng n x).setReg a w := rfl
theorem setUnit_setEng (u : Nat) (v : UnitSt) : (s.setUnit u v).setEng n x = (s.setEng n x).setUnit u v := rfl

/-- In a handler of an exception or NMI: a double fault, after the registers are written. -/
theorem engEnd_engRaise_double (k : Exc) (hh : x.exc = true ∨ x.nmiact = true) :
    engEnd (engRaise (s.setEng n x) n k) n =
      (((s.setEng n (engFinish x)).setCode (uEng n) 0xF).setReg (0x2000 + 0x40 * n) 0x0500).occur 7 (8 * n + 4) 0 := by
  have hr : engRaise (s.setEng n x) n k = engDouble (s.setEng n x) n := by
    rw [engRaise, setEng_eng_self]
    exact if_pos (by simpa using hh)
  have hcause : wd (256 * 5) = 0x0500 := rfl
  rw [hr, engDouble, setCause, hcause]
  simp [engEnd, State.setCode, occur_setEng, setReg_setEng, setUnit_setEng]

/-- In no handler: the exception and its occurrence wait for the collector. -/
theorem engEnd_engRaise_waits (k : Exc) (i : Nat) (hk : k.src = some i) (hc : (s.unit (uEng n)).code = 1)
    (hexc : x.exc = false) (hnmi : x.nmiact = false) :
    engEnd (engRaise (s.setEng n x) n k) n =
      ((s.setEng n (engFinish { x with xcpt := some (k, false) })).setReg (0x2000 + 0x40 * n) (wd (256 * k.cause))).occur
        7 (8 * n + i) 0 := by
  have hr : engRaise (s.setEng n x) n k =
      (setCause (s.setEng n { x with xcpt := some (k, false) }) n k.cause).occur 7 (8 * n + i) 0 := by
    simp [engRaise, hexc, hnmi, hk]
  rw [hr, setCause, engEnd_running _ _ (by simpa using hc)]
  simp [occur_setEng, setReg_setEng]

end

-- one instruction of each shape

section
variable {s : State} {e : Fin 4} {d r : BitVec 4}

theorem engAlu_runs {op : Word → Word → EFlags → Word × EFlags} {w : Word} {c v sat : Bool} (h : engineRuns s e = true)
    (hop : op ((s.eng e).greg d.toNat) ((s.eng e).greg r.toNat) (s.eng e).flags =
      (w, withFlags (s.eng e).flags w.msb (w == 0) c v sat false)) :
    engAlu e d r op s = executed s e ((flagged (s.eng e) w c v sat).setG d.toNat w) := by
  rw [engAlu, engPure_runs s e 1 _ h, hop, withFlags_flagged]
  rfl

/-- A comparison writes the flags alone. -/
theorem engPure_flags_runs {f : Eng → EFlags} {w : Word} {c v : Bool} (h : engineRuns s e = true)
    (hf : f (s.eng e) = withFlags (s.eng e).flags w.msb (w == 0) c v false false) :
    engPure e 1 (fun x => { x with flags := f x }) s = executed s e (flagged (s.eng e) w c v false) := by
  rw [engPure_runs s e 1 _ h, hf, withFlags_flagged]
  rfl

variable {op : Word → Word → EFlags → Word × Word × EFlags} {lo hi : Word} {n z v div0 : Bool}

theorem engPair_runs (h : engineRuns s e = true) (hd : d.toNat % 2 = 0)
    (hop : op ((s.eng e).greg d.toNat) ((s.eng e).greg r.toNat) (s.eng e).flags =
      (lo, hi, withFlags (s.eng e).flags n z false v false div0)) :
    engPair e d r op s = executed s e (paired (s.eng e) d.toNat lo hi n z v div0) := by
  rw [engPair, if_neg (by omega), engPure_runs s e 1 _ h, hop, withFlags_paired _ d.toNat lo hi]
  rfl

/-- A division writes its pair, and then raises DIVZERO where the divisor is 0 and DZTRAP is 1 (R316). -/
theorem engDivide_runs (h : engineRuns s e = true) (hd : d.toNat % 2 = 0)
    (hop : op ((s.eng e).greg d.toNat) ((s.eng e).greg r.toNat) (s.eng e).flags =
      (lo, hi, withFlags (s.eng e).flags n z false v false div0)) :
    let st := (cacheTouch s (s.eng e).pc).setEng e (paired (s.eng e) d.toNat lo hi n z v div0)
    engDivide e d r op s =
      engEnd (if (s.eng e).greg r.toNat = 0 ∧ bit (s.reg (0x2001 + 0x40 * e)) 1 = true then
        engRaise st e .divzero else st) e := by
  rw [engDivide, if_neg (by omega), engRun_runs s e _ h]
  simp only [cacheTouch_eng, setEng_reg, cacheTouch_reg, hop, withFlags_paired _ d.toNat lo hi]
  rfl

theorem engDivide_completes (h : engineRuns s e = true) (hd : d.toNat % 2 = 0)
    (hop : op ((s.eng e).greg d.toNat) ((s.eng e).greg r.toNat) (s.eng e).flags =
      (lo, hi, withFlags (s.eng e).flags n z false v false div0))
    (hb : (s.eng e).greg r.toNat = 0 → bit (s.reg (0x2001 + 0x40 * e)) 1 = false) :
    engDivide e d r op s = executed s e (paired (s.eng e) d.toNat lo hi n z v div0) := by
  have hno : ¬((s.eng e).greg r.toNat = 0 ∧ bit (s.reg (0x2001 + 0x40 * e)) 1 = true) :=
    fun ⟨h0, h1⟩ => Bool.false_ne_true ((hb h0).symm.trans h1)
  have hc := engineRuns_code s e h
  rw [engDivide_runs h hd hop, if_neg hno, engEnd_running _ _ (by simpa using hc), setEng_eng_self, setEng_setEng]
  rfl

section
variable (h : engineRuns s e = true) (hd : d.toNat % 2 = 0)
  (hop : op ((s.eng e).greg d.toNat) ((s.eng e).greg r.toNat) (s.eng e).flags =
    (lo, hi, withFlags (s.eng e).flags n z false v false div0))
  (hb : (s.eng e).greg r.toNat = 0) (ht : bit (s.reg (0x2001 + 0x40 * e)) 1 = true)
include h hd hop hb ht

theorem engDivide_waits (hexc : (s.eng e).exc = false) (hnmi : (s.eng e).nmiact = false) :
    engDivide e d r op s =
      ((executed s e { paired (s.eng e) d.toNat lo hi n z v div0 with xcpt := some (.divzero, false) }).setReg
        (0x2000 + 0x40 * e) 0x0300).occur 7 (8 * e + 2) 0 := by
  have hc := engineRuns_code s e h
  rw [engDivide_runs h hd hop, if_pos ⟨hb, ht⟩,
    engEnd_engRaise_waits _ _ (paired (s.eng e) d.toNat lo hi n z v div0) .divzero 2 rfl (by simpa using hc) hexc hnmi]
  rfl

theorem engDivide_doubles (hh : (s.eng e).exc = true ∨ (s.eng e).nmiact = true) :
    engDivide e d r op s =
      (((executed s e (paired (s.eng e) d.toNat lo hi n z v div0)).setCode (0x38 + e) 0xF).setReg
        (0x2000 + 0x40 * e) 0x0500).occur 7 (8 * e + 4) 0 := by
  rw [engDivide_runs h hd hop, if_pos ⟨hb, ht⟩,
    engEnd_engRaise_double _ _ (paired (s.eng e) d.toNat lo hi n z v div0) .divzero hh]
  rfl

end

end

end Sys2Proof.Machine
end

section
/-! PROOF. The statements about the engines' arithmetic, logic and shifts. -/

namespace Sys2Proof.Machine

open Sys2Proof Sys2Proof.Safety

/-- A command whose meaning is done with `m`, which is `t`, leaves `t`. -/
theorem leaves_of_eq {c : Instr} {s m t : State} (hc : exec c s = done m) (h : m = t) : Leaves c s t :=
  leaves_of_done c s t (h ▸ hc)

/-- Settles O1: each instruction has its shape's effect, with the value and the flags of its operation. -/
theorem engineArithmetic : Obligations.EngineArithmetic := by
  refine ⟨fun s e d r imm h => ?sums, fun s e d r h hd => ⟨?mul, ?mulu, fun hb => ?quotients, fun hb ht => ?untrapped,
    fun hb ht => ⟨fun hx hn => ?waits, fun hh => ?doubles⟩⟩⟩
  case sums =>
    refine ⟨leaves_of_eq rfl ?add, leaves_of_eq rfl ?sub, leaves_of_eq rfl ?adds, leaves_of_eq rfl ?subs,
      leaves_of_eq rfl ?cmp, leaves_of_eq rfl ?neg, leaves_of_eq rfl ?negs, leaves_of_eq rfl ?addi, leaves_of_eq rfl ?cmpi⟩
    case add => exact engAlu_runs h (aluAdd_eq ..)
    case sub => exact engAlu_runs h (aluSub_eq ..)
    case adds => exact engAlu_runs h (aluAdds_eq ..)
    case subs => exact engAlu_runs h (aluSubs_eq ..)
    case cmp => exact engPure_flags_runs h (congrArg Prod.snd (aluSub_eq ..))
    case neg => exact engAlu_runs h (aluNeg_eq ..)
    case negs => exact engAlu_runs h (aluNegs_eq ..)
    case addi => exact engAlu_runs h (aluAdd_eq ..)
    case cmpi => exact engPure_flags_runs h (congrArg Prod.snd (aluSub_eq ..))
  case mul => exact leaves_of_eq rfl (engPair_runs h hd (aluMul_eq ..))
  case mulu => exact leaves_of_eq rfl (engPair_runs h hd (aluMulu_eq ..))
  case quotients =>
    exact ⟨leaves_of_eq rfl (engDivide_completes h hd (aluDiv_eq _ _ _ hb) fun h0 => absurd h0 hb),
      leaves_of_eq rfl (engDivide_completes h hd (aluDivu_eq _ _ _ hb) fun h0 => absurd h0 hb)⟩
  case untrapped =>
    exact ⟨leaves_of_eq rfl (engDivide_completes h hd (hb ▸ aluDiv_zero ..) fun _ => ht),
      leaves_of_eq rfl (engDivide_completes h hd (hb ▸ aluDivu_zero ..) fun _ => ht)⟩
  case waits =>
    exact ⟨leaves_of_eq rfl (engDivide_waits h hd (hb ▸ aluDiv_zero ..) hb ht hx hn),
      leaves_of_eq rfl (engDivide_waits h hd (hb ▸ aluDivu_zero ..) hb ht hx hn)⟩
  case doubles =>
    exact ⟨leaves_of_eq rfl (engDivide_doubles h hd (hb ▸ aluDiv_zero ..) hb ht hh),
      leaves_of_eq rfl (engDivide_doubles h hd (hb ▸ aluDivu_zero ..) hb ht hh)⟩

/-- Settles O2: each instruction has its shape's effect, and a shift the exact value of its amount. -/
theorem engineLogicAndShifts : Obligations.EngineLogicAndShifts := by
  refine ⟨fun s e d r imm w h => ?logic, fun s e d r h => ?shifts⟩
  case logic =>
    refine ⟨leaves_of_eq rfl ?and, leaves_of_eq rfl ?or, leaves_of_eq rfl ?xor, leaves_of_eq rfl ?mov,
      leaves_of_eq rfl ?not, leaves_of_eq rfl ?ldi, leaves_of_eq rfl ?ldl, leaves_of_eq rfl ?mff, leaves_of_eq rfl ?mtf⟩
    case and | or | xor | mov | not => exact engAlu_runs h (aluLogic_eq ..)
    case ldi | mff | mtf => exact engPure_runs s e 1 _ h
    case ldl => exact engPure_runs s e 2 _ h
  case shifts =>
    refine ⟨leaves_of_eq rfl ?lsl, leaves_of_eq rfl ?lsr, leaves_of_eq rfl ?asr, leaves_of_eq rfl ?ror⟩
    case lsl => exact engAlu_runs h (aluLsl_eq ..)
    case lsr => exact engAlu_runs h (aluLsr_eq ..)
    case asr => exact engAlu_runs h (aluAsr_eq ..)
    case ror => exact engAlu_runs h (aluRor_eq ..)

end Sys2Proof.Machine
end
